-- ==== Sys2Proof/Word.lean ====
section
/-! DEFINITION. The words of the CS16's lines and registers, and the fixed-size table. -/

namespace Sys2Proof

/-- One byte of either serial line or of the store. -/
abbrev Byte := BitVec 8

/-- A two-byte field. -/
abbrev Half := BitVec 16

/-- A trigger code (R100). -/
abbrev Code := BitVec 32

/-- A three-byte field: a store address or a sample index (R172). -/
abbrev Addr := BitVec 24

/-- A fixed number of like things, in order: voices, lanes, cue slots, sectors. -/
structure Table (α : Type) (n : Nat) where
  cells : List α
  size_eq : cells.length = n
deriving DecidableEq, Repr

namespace Table

variable {α β : Type} {n : Nat}

/-- The entry at an index. -/
def get (t : Table α n) (i : Fin n) : α :=
  t.cells.get (i.cast t.size_eq.symm)

/-- The table with one entry replaced. -/
def set (t : Table α n) (i : Fin n) (x : α) : Table α n :=
  ⟨t.cells.set i.val x, by rw [List.length_set]; exact t.size_eq⟩

/-- The table with one value everywhere. -/
def const (n : Nat) (x : α) : Table α n :=
  ⟨List.replicate n x, List.length_replicate⟩

/-- Every entry changed by one function. -/
def map (f : α → β) (t : Table α n) : Table β n :=
  ⟨t.cells.map f, by rw [List.length_map]; exact t.size_eq⟩

/-- A list changed entry by entry, each with its place counted from `k`. -/
def mapFrom (f : Nat → α → β) : Nat → List α → List β
  | _, [] => []
  | k, x :: xs => f k x :: mapFrom f (k + 1) xs

theorem length_mapFrom (f : Nat → α → β) (k : Nat) (l : List α) : (mapFrom f k l).length = l.length := by
  induction l generalizing k with
  | nil => rfl
  | cons x xs ih => simp [mapFrom, ih]

/-- Every entry changed by a function that is given its place too. -/
def mapIdx (f : Nat → α → β) (t : Table α n) : Table β n :=
  ⟨mapFrom f 0 t.cells, by rw [length_mapFrom]; exact t.size_eq⟩

/-- Some entry of a list meets a test that is given its place, counted from `k`. -/
def anyFrom (p : Nat → α → Bool) : Nat → List α → Bool
  | _, [] => false
  | k, x :: xs => p k x || anyFrom p (k + 1) xs

/-- Some entry meets a test that is given its place. -/
def anyIdx (p : Nat → α → Bool) (t : Table α n) : Bool :=
  anyFrom p 0 t.cells

/-- The table that a list spells, short places filled with a value and a long list cut. -/
def ofList (n : Nat) (fill : α) (l : List α) : Table α n :=
  ⟨(l ++ List.replicate n fill).take n, by simp⟩

end Table

end Sys2Proof
end

