-- ==== Sys2Proof/Syntax.lean ====
section
/-! DEFINITION. The commands the CS16 takes: one constructor per row of spec/opcode_table.json. A host request carries its
tag and the fields of its payload as they cross the link (R174 to R176), so a field may hold a value out of its range. -/

namespace Sys2Proof

/-- The start order as VOICE PLAY carries it (R175). -/
structure OrderWire where
  clip : Byte
  priority : Byte
  group : Byte
  step : Half
  level : Half
  pan : Byte
  loopCount : Byte
  releaseRate : Byte
  releaseScale : Byte
  flags : Byte
  rampTarget : Half
  rampRate : Byte
  rampScale : Byte
  rampMode : Byte
  rampNotify : Byte
deriving DecidableEq, Repr

/-- The clip record as CLIP DEFINE carries it (R175). -/
structure ClipWire where
  clip : Byte
  format : Byte
  base : Addr
  count : Addr
  loopMode : Byte
  loopStart : Addr
  loopEnd : Addr
  step : Half
  releaseRate : Byte
  releaseScale : Byte
deriving DecidableEq, Repr

/-- The binding record as BIND SET carries it (R176). -/
structure BindingWire where
  binding : Byte
  enabled : Byte
  code : Code
  lane : Byte
  entry : Byte
  clear : Byte
  policy : Byte
  holdoff : Byte
deriving DecidableEq, Repr

/-- What a serial line brings a receiver (R160, R162, R101): the start bit of a byte, or the byte at its end. A byte whose start
bit no command has brought is start bit and end in one event. -/
inductive LineEvent where
  | startBit
  | byte (value : Byte)
deriving DecidableEq, Repr

/-- The commands (spec/opcode_table.json). -/
inductive Instr where
  /-- IDENTIFY (R168). -/
  | identify (tag : Byte)
  /-- RESET with WARM (R170). -/
  | resetWarm (tag : Byte)
  /-- RESET with COLD (R170). -/
  | resetCold (tag : Byte)
  /-- LINK SET (R169). -/
  | linkSet (tag rate : Byte)
  /-- CLIP DEFINE (R123, R124). -/
  | clipDefine (tag : Byte) (record : ClipWire)
  /-- CLIP DELETE (R125). -/
  | clipDelete (tag clip : Byte)
  /-- CLIP READ (R126). -/
  | clipRead (tag clip : Byte)
  /-- STORE READ (R133). -/
  | storeRead (tag : Byte) (addr : Addr) (count : Half)
  /-- STORE PROGRAM (R130). -/
  | storeProgram (tag : Byte) (addr : Addr) (data : List Byte)
  /-- STORE ERASE (R129). -/
  | storeErase (tag sector : Byte)
  /-- STORE STATUS (R134). -/
  | storeStatus (tag : Byte)
  /-- SETUP COMMIT (R184). -/
  | setupCommit (tag : Byte)
  /-- CUE WRITE (R69); the block is the bytes of R176. -/
  | cueWrite (tag slot : Byte) (block : List Byte)
  /-- CUE CLEAR (R71). -/
  | cueClear (tag first last : Byte)
  /-- CUE READ (R72). -/
  | cueRead (tag first count : Byte)
  /-- LANE START (R77). -/
  | laneStart (tag lane slot clear : Byte)
  /-- LANE PAUSE (R86). -/
  | lanePause (tag lane : Byte)
  /-- LANE RESUME (R87). -/
  | laneResume (tag lane : Byte)
  /-- LANE ABORT (R89). -/
  | laneAbort (tag lane voices : Byte)
  /-- LANE STATUS (R96). -/
  | laneStatus (tag lane : Byte)
  /-- AUTOSTART SET (R183). -/
  | autostartSet (tag lane enabled slot : Byte)
  /-- VOICE PLAY (R40). -/
  | voicePlay (tag : Byte) (order : OrderWire)
  /-- VOICE RAMP (R15). -/
  | voiceRamp (tag voice generation : Byte) (target : Half) (rate scale mode notify : Byte)
  /-- VOICE RELEASE (R16). -/
  | voiceRelease (tag voice generation : Byte)
  /-- VOICE STOP (R17). -/
  | voiceStop (tag voice generation : Byte)
  /-- VOICE HOLD (R18). -/
  | voiceHold (tag voice generation : Byte)
  /-- VOICE CONTINUE (R18). -/
  | voiceContinue (tag voice generation : Byte)
  /-- VOICE STATUS (R21). -/
  | voiceStatus (tag voice : Byte)
  /-- FILTER SET (R104): the count byte and the codes. -/
  | filterSet (tag count : Byte) (codes : List Code)
  /-- BIND SET (R111). -/
  | bindSet (tag : Byte) (record : BindingWire)
  /-- BIND CLEAR (R112). -/
  | bindClear (tag binding : Byte)
  /-- BIND READ (R113). -/
  | bindRead (tag binding : Byte)
  /-- TRIGGER SET (R114). -/
  | triggerSet (tag rate report : Byte)
  /-- OUTPUT SET (R147). -/
  | outputSet (tag mode : Byte) (left right : Half) (mute deadZone : Byte)
  /-- EVENT READ (R154). -/
  | eventRead (tag count : Byte)
  /-- TALLY READ (R157). -/
  | tallyRead (tag choice : Byte)
  /-- HOST FRAME COMPLETE (R161, R164): the good byte that completes the frame on HRX. -/
  | hostFrameComplete (last : Byte)
  /-- The host receiver's gap count reaches 0 in the coming frame (R162). -/
  | hostGapTimeout
  /-- The last byte of the reply leaves HTX (R165). -/
  | replySent
  /-- NRST is asserted (R171). -/
  | nrstAssert
  /-- NRST is released (R138). -/
  | nrstRelease
  /-- Power returns (R136). -/
  | powerUp
  /-- The loader loads the setup area (R181, R182). -/
  | setupLoad
  /-- LNC takes the next autostart entry (R95). -/
  | autostartEntry
  /-- TRIGGER FRAME COMPLETE (R100, R102): the good byte that completes the frame on TRX. -/
  | triggerFrameComplete (last : Byte)
  /-- The trigger receiver's gap count reaches 0 in the coming frame (R101). -/
  | trigGapTimeout
  /-- An output frame (R137). -/
  | frame
  /-- A voice's cut completes in the coming frame (R12). -/
  | cutComplete (voice : Fin 16)
  /-- A voice's ramp has a move instant in the coming frame (R28). -/
  | rampMoveInstant (voice : Fin 16)
  /-- The mute ramp ends in the coming frame (R142). -/
  | muteRampEnd
  /-- The millisecond tick of the 32nd frame (R138). -/
  | msTick
  /-- A lane's TIME wait ends at the coming tick (R83). -/
  | waitTimeExpiry (lane : Fin 4)
  /-- A lane's held notice expires at the coming tick (R91). -/
  | heldNoticeExpiry (lane : Fin 4)
  /-- A binding's holdoff ends at the coming tick (R109). -/
  | holdoffExpiry (binding : Fin 32)
  /-- The store step in progress runs out of time at the coming tick (R128). -/
  | stepTimeout
  /-- The flash array reports the step finished (R128). -/
  | storeStepDone
  /-- LNC takes VCE's oldest signal (R84). -/
  | handleNotLive
  /-- ALC runs a retry round (R53). -/
  | retryRound
  /-- A byte on HRX: its start bit begins (R162), or it has arrived (R161) with a `good` stop bit or a bad one. -/
  | hostByteReceived (event : LineEvent) (good : Bool)
  /-- A byte on TRX: its start bit begins (R101), or it has arrived (R100) with a `good` stop bit or a bad one. -/
  | triggerByteReceived (event : LineEvent) (good : Bool)
  /-- Supply is lost (POWER_LOSS, R186). -/
  | powerLoss
deriving DecidableEq, Repr

end Sys2Proof
end

