-- ==== Sys2Proof/Decode.lean ====
section
/-! DEFINITION. The command a word spells by the opcode table's bits. -/

namespace Sys2Proof

/-- No row of spec/opcode_table.json gives bits (98_reader.md: n_rows_with_fixed 0, n_rows_with_fields 0), so no word
spells a command. Commands reach the part by the byte layouts of R172 to R176, which Machine/Link.lean decodes. -/
def decodeTableWord (_nbits _w : Nat) : Option Instr :=
  none

end Sys2Proof
end

