-- ==== Sys2Proof/Config.lean ====
section
/-! DEFINITION. What the manual fixes for every CS16 as a number, and the values it leaves open. -/

namespace Sys2Proof

/-- FREE VALUE (log 8). The byte left at a store address by an erase or program step that timed out (R128) or that
power loss stopped (POWER_LOSS). The first argument is the state's counter of such steps, the second the address. -/
opaque Config.damagedByte : Nat → Nat → Byte

namespace Config

/-- Bytes in the store (R117). -/
def storeBytes : Nat := 524288

/-- Bytes in a sector (R117). -/
def sectorBytes : Nat := 4096

/-- Bytes in a page (R117). -/
def pageBytes : Nat := 256

/-- The first byte address of the sample area (R117). -/
def sampleArea : Nat := 8192

/-- What a byte of the store that nothing has programmed since its erase reads as (R117, log 9). -/
def erasedByte : Byte := 0xFF

/-- Records the event queue holds at most (R151). -/
def queueRecords : Nat := 64

/-- The greatest value of a tally (R156). -/
def tallyMax : Nat := 65535

/-- The greatest value of the lost counter (R152). -/
def lostMax : Nat := 255

/-- The count of blocks completed at once at which a lane faults RUNAWAY (R80, R81). -/
def runBudget : Nat := 64

/-- Frames a cut fade lasts (R11). -/
def cutFrames : Nat := 32

/-- The frames between two millisecond ticks (R137). -/
def framesPerTick : Nat := 32

/-- Milliseconds an erase step may take (R128). -/
def eraseLimit : Nat := 50

/-- Milliseconds a page program step may take (R128). -/
def programLimit : Nat := 5

/-- Frames of silence allowed inside a request frame (R162). -/
def hostGap : Nat := 160

/-- Frames of silence allowed inside a trigger frame (R101). -/
def trigGap : Nat := 96

/-- The greatest level (R24). -/
def maxLevel : Nat := 4095

/-- The mute position at full gain (R142). -/
def fullMute : Nat := 256

/-- Steps of a SETUP COMMIT (R184). -/
def commitSteps : Nat := 25

end Config

end Sys2Proof
end

