-- ==== Sys2Proof/Machine/State.lean ====
section
/-! DEFINITION. The state of the CS16, block by block, as plain data, and the state right after reset. -/

namespace Sys2Proof.Machine

/-! ### Names -/

/-- A handle (R14): a voice and the generation of one start on it. -/
structure Handle where
  voice : Fin 16
  generation : Byte
deriving DecidableEq, Repr

/-- Who asked for a start (R1). -/
inductive Owner where
  | link
  | lane (lane : Fin 4)
deriving DecidableEq, Repr

/-- The direction in which a position moves (R1). -/
inductive Direction where
  | forward
  | backward
deriving DecidableEq, Repr

/-- Loop modes (R1, R121). -/
inductive LoopMode where
  | none
  | forward
  | alternate
deriving DecidableEq, Repr

/-- Sample formats (R5, R121). -/
inductive Format where
  | s8
  | u8
  | s16
deriving DecidableEq, Repr

/-- Ramp modes (R27). -/
inductive RampMode where
  | once
  | cycle
  | swing
deriving DecidableEq, Repr

/-- The scale of a ramp or release: the frames between move instants (R27). -/
inductive Scale where
  | x1
  | x8
  | x64
  | x512
deriving DecidableEq, Repr

/-- Why a start ended (section 1.6). -/
inductive EndReason where
  | clipEnd
  | released
  | stopped
  | stolen
  | superseded
  | cancelled
deriving DecidableEq, Repr

/-- The status of a reply (R167). -/
inductive Status where
  | ok
  | accepted
  | badType
  | badLength
  | badField
  | notDefined
  | inUse
  | busy
  | isProtected
  | noVoice
  | clipBusy
  | stale
  | slotActive
  | wrongState
  | notApplied
  | suspect
deriving DecidableEq, Repr

/-! ### Voices (VCE) -/

/-- A release: a rate 1..255 with a scale (R1). -/
structure Release where
  rate : Nat
  scale : Scale
deriving DecidableEq, Repr

/-- A ramp as a request, cue block or start order gives it (R15, R33). -/
structure RampSpec where
  target : Nat
  rate : Nat
  scale : Scale
  mode : RampMode
  notify : Bool
deriving DecidableEq, Repr

/-- A ramp record in a voice (R27). -/
structure Ramp where
  mode : RampMode
  base : Nat
  target : Nat
  rate : Nat
  scale : Scale
  sub : Nat
  notify : Bool
deriving DecidableEq, Repr

/-- A start order (R39). `release` none is a release rate of 0: the clip's own. -/
structure StartOrder where
  clip : Fin 64
  priority : Fin 8
  group : Fin 8
  step : Nat
  level : Nat
  pan : Fin 16
  loopCount : Nat
  release : Option Release
  reverse : Bool
  noteEnd : Bool
  ramp : Option RampSpec
deriving DecidableEq, Repr

/-- The fields of a voice's sounding start (R1), present in every state but FREE. `pos` counts 1/4096 samples: its
integer part is `pos / 4096` and its fraction `pos % 4096`. -/
structure Sounding where
  clip : Fin 64
  pos : Nat
  direction : Direction
  step : Nat
  loopMode : LoopMode
  loops : Nat
  exit : Bool
  level : Nat
  ramp : Option Ramp
  release : Option Release
  pan : Fin 16
  priority : Fin 8
  group : Fin 8
  noteEnd : Bool
  owner : Owner
deriving DecidableEq, Repr

/-- The state a HELD voice returns to on CONTINUE (R1). -/
inductive HeldFrom where
  | playing
  | releasing
deriving DecidableEq, Repr

/-- Why a voice is being cut (R1). -/
inductive CutReason where
  | stopped
  | stolen
  | superseded
deriving DecidableEq, Repr

/-- The cut record (R1, R11). -/
structure Cut where
  framesLeft : Nat
  reason : CutReason
  generation : Byte
deriving DecidableEq, Repr

/-- The successor of a cutting voice (R1, R49). -/
structure Successor where
  order : StartOrder
  generation : Byte
  owner : Owner
deriving DecidableEq, Repr

/-- The state of a voice with the fields that state has (R1, R2). -/
inductive VoiceBody where
  | free
  | playing (start : Sounding)
  | releasing (start : Sounding)
  | held (start : Sounding) (heldFrom : HeldFrom)
  | cutting (start : Sounding) (cut : Cut) (successor : Option Successor)
deriving DecidableEq, Repr

/-- A voice context (R1). -/
structure Voice where
  generation : Byte
  body : VoiceBody
deriving DecidableEq, Repr

/-! ### Allocator (ALC) -/

/-- A retry that ALC has asked LNC about and not yet answered (R53, R85): the lane and the order its START wait held.
`standing` says that no later START wait of the lane has begun, so a START wait it is in is still that one. -/
structure Retry where
  lane : Fin 4
  order : StartOrder
  standing : Bool
deriving DecidableEq, Repr

/-- The state of ALC: the age list, oldest claim first (R52), the flag offer due (R53), and the retry of a round that stands
between its question and its answer (R85). -/
structure Alc where
  age : List (Fin 16)
  offerDue : Bool
  retry : Option Retry
deriving DecidableEq, Repr

/-! ### Clip directory and store (DIR, STO) -/

/-- The loop of a clip: present when its loop mode is not NONE (R121). -/
structure Loop where
  start : Nat
  finish : Nat
deriving DecidableEq, Repr

/-- A DEFINED clip record (R121). `loop` is absent for loop mode NONE. -/
structure ClipRecord where
  base : Nat
  count : Nat
  format : Format
  loopMode : LoopMode
  loop : Option Loop
  step : Nat
  release : Option Release
deriving DecidableEq, Repr

/-- One clip of the directory: its record, absent when EMPTY (R121), and its use count (R122). -/
structure Clip where
  record : Option ClipRecord
  useCount : Nat
deriving DecidableEq, Repr

/-- One sector table entry, with the sector's open mark in the state area (R118). -/
structure Sector where
  suspect : Bool
  useCount : Nat
  busy : Bool
  openMark : Bool
deriving DecidableEq, Repr

/-- Store operations (R128). -/
inductive StoreOp where
  | erase
  | program
  | commit
deriving DecidableEq, Repr

/-- The result of a store step (R128). -/
inductive StoreResult where
  | ok
  | timeout
  | verifyFail
deriving DecidableEq, Repr

/-- The operation record (R128). `image` is the model's own: the bytes a COMMIT program step programs and verifies,
taken when the step began (R184, log 17). -/
structure OpRecord where
  op : StoreOp
  sector : Fin 128
  page : Option Nat
  limitLeft : Nat
  commitStep : Option Nat
  data : Option (List Byte)
  image : Option (List Byte)
deriving DecidableEq, Repr

/-! ### Cue memory (CUM) -/

/-- What a PLAY block does when its start fails (R62). -/
inductive NoVoicePolicy where
  | skip
  | retry
  | fault
deriving DecidableEq, Repr

/-- The operands of a PLAY block (R58). -/
structure PlayOperands where
  h : Fin 4
  order : StartOrder
  policy : NoVoicePolicy
deriving DecidableEq, Repr

/-- The op of a cue block with its operands (R58). -/
inductive CueOp where
  | play (operands : PlayOperands)
  | ramp (h : Fin 4) (ramp : RampSpec)
  | release (h : Fin 4)
  | stop (h : Fin 4)
  | waitTime (ms : Nat)
  | waitVoice (h : Fin 4)
  | waitCode (code : Code)
  | repeatTo (target : Fin 256) (count : Nat)
  | mark (value : Half)
deriving DecidableEq, Repr

/-- A cue block (R57). -/
structure CueBlock where
  op : CueOp
  last : Bool
  pause : Bool
  note : Bool
  link : Fin 256
  quiet : Nat
deriving DecidableEq, Repr

/-! ### Lanes (LNC) -/

/-- Lane states (R75). -/
inductive LaneState where
  | idle
  | running
  | waiting
  | starved
  | paused
  | faulted
deriving DecidableEq, Repr

/-- Who started a lane's most recent run (R74). -/
inductive Origin where
  | link
  | binding (b : Fin 32)
  | autostart
deriving DecidableEq, Repr

/-- The counted loop in progress (R67). -/
structure Repeat where
  owner : Fin 256
  remaining : Nat
deriving DecidableEq, Repr

/-- What a waiting lane waits for (R74). -/
inductive Wait where
  | time (msLeft : Nat)
  | voice (handle : Handle)
  | code (code : Code)
  | start (order : StartOrder)
deriving DecidableEq, Repr

/-- The reasons a notice may be held for (R91). -/
inductive NoticeReason where
  | runEnd
  | pause
deriving DecidableEq, Repr

/-- A held LANE_IDLE notice (R91). -/
structure Notice where
  reason : NoticeReason
  msLeft : Nat
  slot : Fin 256
deriving DecidableEq, Repr

/-- A binding start queued behind a run (R94). -/
structure PendingStart where
  binding : Fin 32
  entry : Fin 256
  clear : Bool
deriving DecidableEq, Repr

/-- Fault codes of a lane (R88). -/
inductive LaneFault where
  | clipNotDefined
  | clipBusy
  | clipSuspect
  | noVoice
  | nestedRepeat
  | runaway
deriving DecidableEq, Repr

/-- A lane context (R74). -/
structure Lane where
  state : LaneState
  slot : Option (Fin 256)
  origin : Option Origin
  handles : Table (Option Handle) 4
  rep : Option Repeat
  wait : Option Wait
  pauseRequested : Bool
  budget : Nat
  notice : Option Notice
  pendingStart : Option PendingStart
  fault : Option (LaneFault × Fin 256)
deriving DecidableEq, Repr

/-! ### Trigger receiver (TRG) -/

/-- The states of a line receiver (R99, R160). -/
inductive RxState where
  | off
  | hunting
  | collecting
deriving DecidableEq, Repr

/-- Trigger line rates (R99). -/
inductive TrigRate where
  | b9600
  | b19200
  | b38400
deriving DecidableEq, Repr

/-- The trigger report setting (R99). -/
inductive Report where
  | nothing
  | unbound
  | all
deriving DecidableEq, Repr

/-- What a binding does when its lane is busy (R93). -/
inductive BusyPolicy where
  | ignore
  | restart
  | queue
deriving DecidableEq, Repr

/-- A binding record (R107). -/
structure Binding where
  enabled : Bool
  code : Code
  lane : Fin 4
  entry : Fin 256
  clear : Bool
  policy : BusyPolicy
  holdoff : Nat
  holdoffLeft : Nat
deriving DecidableEq, Repr

/-- What a receiver notes of a byte in reception on its line. -/
inductive Reception where
  /-- No byte is in reception. -/
  | idle
  /-- The start bit of a byte has begun (R101, R162). -/
  | begun
  /-- The receiver restarted at a new rate while a byte was in reception: the end of that byte is dropped (R114, R169). -/
  | dropped
deriving DecidableEq, Repr

/-- The state of TRG (R99, R103, R107). `bytes` are the bytes held, first received first. -/
structure Trg where
  rate : TrigRate
  report : Report
  rx : RxState
  bytes : List Byte
  gap : Nat
  reception : Reception
  filterList : List Code
  filterTable : Table Bool 64
  bindings : Table Binding 32
deriving DecidableEq, Repr

/-! ### Output (OUT) -/

/-- Output modes (R140). -/
inductive OutputMode where
  | stereo
  | mono
deriving DecidableEq, Repr

/-- Mute states (R142). -/
inductive MuteState where
  | unmuted
  | muting
  | muted
  | unmuting
deriving DecidableEq, Repr

/-- What the last output frame formed: the buses (R139), the values after the mute gain (R142), the duties (R144), and
the dead zone and blanking its four carrier periods run with (R145, R146). -/
structure FrameOut where
  busLeft : Int
  busRight : Int
  left : Int
  right : Int
  dutyLeft : Nat
  dutyRight : Nat
  zone : Nat
  blank : Bool
deriving DecidableEq, Repr

/-- The state of OUT (R137, R138, R140, R142, R145). -/
structure Out where
  mode : OutputMode
  leftMaster : Nat
  rightMaster : Nat
  deadZone : Nat
  mute : MuteState
  mutePos : Nat
  msCount : Half
  frameSub : Nat
  contributions : Table (Int × Int) 16
  shown : FrameOut
deriving DecidableEq, Repr

/-- The model's own (log 3): which shares of the coming output frame, and of the tick it may bring, have been taken
already by a command that names one of them. -/
structure Progress where
  /-- Voices V0 up to, not including, this one have done their frame work. -/
  voices : Nat
  /-- OUT has made the mute step. -/
  mute : Bool
  /-- LNK has counted the frame for its gap. -/
  hostGap : Bool
  /-- TRG has counted the frame for its gap. -/
  trigGap : Bool
  /-- The millisecond count has risen for the tick. -/
  count : Bool
  /-- Lanes L0 up to, not including, this one have taken the tick. -/
  lanes : Nat
  /-- TRG has taken the tick. -/
  holdoffs : Bool
  /-- STO has taken the tick. -/
  store : Bool
deriving DecidableEq, Repr

/-! ### Events (EVQ) -/

/-- Event kinds (R150). -/
inductive EventKind where
  | voiceEnd
  | rampDone
  | laneIdle
  | cueDone
  | mark
  | startFail
  | trigger
  | storeDone
  | setupLoaded
deriving DecidableEq, Repr

/-- An event record (R150). -/
structure EventRecord where
  kind : EventKind
  subject : Nat
  generation : Byte
  reason : Byte
  value : BitVec 32
  time : Half
  lost : Nat
deriving DecidableEq, Repr

/-- The tallies (R156). -/
inductive Tally where
  | linkCrc
  | linkFraming
  | linkLate
  | trigCrc
  | trigFraming
  | trigUnbound
  | trigRefused
  | eventsLost
  | steals
  | startFails
  | outputClips
deriving DecidableEq, Repr

/-- The place of a tally in the order of R156. -/
def Tally.index : Tally → Fin 11
  | .linkCrc => 0
  | .linkFraming => 1
  | .linkLate => 2
  | .trigCrc => 3
  | .trigFraming => 4
  | .trigUnbound => 5
  | .trigRefused => 6
  | .eventsLost => 7
  | .steals => 8
  | .startFails => 9
  | .outputClips => 10

/-- The state of EVQ: the event queue, oldest record first (R151), the lost counter (R152) and the tallies (R156). -/
structure Evq where
  queue : List EventRecord
  lost : Nat
  tallies : Table Nat 11
deriving DecidableEq, Repr

/-! ### Link (LNK) -/

/-- Host link rates (R160). -/
inductive LinkRate where
  | b19200
  | b57600
  | b115200
  | b230400
deriving DecidableEq, Repr

/-- A reply: the frame that is leaving HTX (R165). -/
structure Reply where
  tag : Byte
  type : Byte
  status : Status
  data : List Byte
deriving DecidableEq, Repr

/-- What takes effect when the last byte of the reply has left HTX (R169, R170). -/
inductive AfterReply where
  | nothing
  | newRate (rate : LinkRate)
  | coldReset
deriving DecidableEq, Repr

/-- The state of LNK (R160). `bytes` are the bytes held, first received first. -/
structure Lnk where
  rate : LinkRate
  rx : RxState
  bytes : List Byte
  frameLength : Option Nat
  gap : Nat
  reception : Reception
  replyOwed : Bool
  reply : Option Reply
  after : AfterReply
deriving DecidableEq, Repr

/-! ### The whole machine -/

/-- The state of the CS16. -/
structure State where
  /-- VCE: the sixteen voices (R1). -/
  voices : Table Voice 16
  /-- ALC (R52, R53). -/
  alc : Alc
  /-- VCE's signals that a handle is no longer live, sent and not yet taken by LNC, oldest first (R14, R84). -/
  signals : List Handle
  /-- DIR: the clips (R121). -/
  clips : Table Clip 64
  /-- STO: the sector table (R118). -/
  sectors : Table Sector 128
  /-- STO: the bytes of the store (R117). -/
  mem : List Host.Cell
  /-- STO: the operation record (R128). -/
  op : Option OpRecord
  /-- STO: a cold reset waits for the step in progress to end (R136). -/
  coldWait : Bool
  /-- CUM: the cue slots, none for EMPTY (R56). -/
  cues : Table (Option CueBlock) 256
  /-- LNC: the lanes (R74). -/
  lanes : Table Lane 4
  /-- TRG (R99). -/
  trg : Trg
  /-- OUT (R137 to R146). -/
  out : Out
  /-- The model's own: progress of the coming frame (log 3). -/
  progress : Progress
  /-- EVQ (R151, R152, R156). -/
  evq : Evq
  /-- LNK (R160). -/
  lnk : Lnk
  /-- The loader's autostart table (R180). -/
  autostart : Table (Option (Fin 256)) 4
  /-- Loading has still to be made after a cold reset (R181). -/
  loadDue : Bool
  /-- Autostart entries still to be handed to LNC (R182). -/
  autostartDue : List (Fin 4 × Fin 256)
  /-- NRST is asserted (R138). -/
  nrst : Bool
  /-- Supply is present (R136, POWER_LOSS). -/
  power : Bool
  /-- The model's own: how many store steps have left free values in the store (log 8). -/
  damage : Nat
  /-- The model's own, a free value: at each coming point between two blocks of a lane's run, or between ALC's question of a
  retry and its answer, whether another command is taken there; at a point past the list, none is (R79, R85, log 6). -/
  openings : List Bool
  /-- The commands that wait, first in, first out. -/
  pending : List Instr
deriving DecidableEq, Repr

/-! ### How a step can stop -/

/-- The spec gives the part no behaviour in which it stops: every command has an outcome, so no constructor (log 21). -/
inductive Fault where
deriving DecidableEq, Repr

/-- Why the model gives a command no meaning. -/
inductive Refusal where
  /-- No meaning yet for the row with this mnemonic. No arm of exec raises it. Safe. -/
  | notModelled (mnemonic : String)
deriving DecidableEq, Repr

/-! ### Reset -/

/-- A voice after a cold reset (R22). -/
def Voice.cold : Voice := ⟨0, .free⟩

/-- A lane after either reset (R97, R98). -/
def Lane.cold : Lane :=
  { state := .idle, slot := none, origin := none, handles := Table.const 4 none, rep := none, wait := none,
    pauseRequested := false, budget := 0, notice := none, pendingStart := none, fault := none }

/-- A binding as R115 gives it where nothing is loaded. -/
def Binding.cold : Binding :=
  { enabled := false, code := 0, lane := 0, entry := 0, clear := false, policy := .ignore, holdoff := 0, holdoffLeft := 0 }

/-- A clip that holds nothing (R121, R180). -/
def Clip.empty : Clip := ⟨none, 0⟩

/-- A sector of a part as shipped (R118). -/
def Sector.shipped : Sector := ⟨false, 0, false, false⟩

/-- TRG after a cold reset, before loading (R115, log 10). -/
def Trg.cold : Trg :=
  { rate := .b9600, report := .nothing, rx := .off, bytes := [], gap := 0, reception := .idle, filterList := [],
    filterTable := Table.const 64 false, bindings := Table.const 32 Binding.cold }

/-- What the pins show after a cold reset: blank (R146, R148; log 22). -/
def FrameOut.cold : FrameOut := ⟨0, 0, 0, 0, 128, 128, 4, true⟩

/-- OUT after a cold reset (R138, R148). -/
def Out.cold : Out :=
  { mode := .stereo, leftMaster := 4095, rightMaster := 4095, deadZone := 4, mute := .muted, mutePos := 0, msCount := 0,
    frameSub := 0, contributions := Table.const 16 (0, 0), shown := FrameOut.cold }

/-- No share of the coming frame taken (log 3). -/
def Progress.start : Progress := ⟨0, false, false, false, false, 0, false, false⟩

/-- EVQ after a cold reset (R158). -/
def Evq.cold : Evq := ⟨[], 0, Table.const 11 0⟩

/-- LNK after a cold reset (R171). -/
def Lnk.cold : Lnk :=
  { rate := .b115200, rx := .off, bytes := [], frameLength := none, gap := 0, reception := .idle, replyOwed := false,
    reply := none, after := .nothing }

/-- The machine right after the cold reset of a power-up, before the setup area is loaded. The store lists nothing and
every sector is READY, as shipped (R118, log 9, log 10). -/
def State.reset : State :=
  { voices := Table.const 16 Voice.cold
    alc := ⟨[], false, none⟩
    signals := []
    clips := Table.const 64 Clip.empty
    sectors := Table.const 128 Sector.shipped
    mem := []
    op := none
    coldWait := false
    cues := Table.const 256 none
    lanes := Table.const 4 Lane.cold
    trg := Trg.cold
    out := Out.cold
    progress := Progress.start
    evq := Evq.cold
    lnk := Lnk.cold
    autostart := Table.const 4 none
    loadDue := true
    autostartDue := []
    nrst := false
    power := true
    damage := 0
    openings := []
    pending := [] }

end Sys2Proof.Machine
end

