-- ==== Sys2Proof/Machine/Ops.lean ====
section
/-! DEFINITION. The shared operations on the state: the store's bytes, one entry of each table, event records, tallies,
signals and claims. -/

namespace Sys2Proof.Machine

/-- What a step answers. -/
abbrev Result := Host.Outcome State Fault Refusal

/-- The sixteen voices in ascending number. -/
def allVoices : List (Fin 16) := [0, 1, 2, 3, 4, 5, 6, 7, 8, 9, 10, 11, 12, 13, 14, 15]

/-- The four lanes in ascending number. -/
def allLanes : List (Fin 4) := [0, 1, 2, 3]

/-- The thirty-two bindings in ascending number. -/
def allBindings : List (Fin 32) :=
  [0, 1, 2, 3, 4, 5, 6, 7, 8, 9, 10, 11, 12, 13, 14, 15, 16, 17, 18, 19, 20, 21, 22, 23, 24, 25, 26, 27, 28, 29, 30, 31]

/-- A number as an index below a bound, where it is one. -/
def finOf (n k : Nat) : Option (Fin n) :=
  if h : k < n then some ⟨k, h⟩ else none

/-! ### The store's bytes (R117) -/

/-- The bytes of the store: the cells that differ from an erased byte, addresses rising. -/
abbrev Memory := List Host.Cell

/-- The byte at an address; an unlisted address reads as an erased byte (log 9). -/
def Memory.read : Memory → Nat → Byte
  | [], _ => Config.erasedByte
  | (k, b) :: rest, a => if k = a then b else Memory.read rest a

/-- The cell that holds a byte, or no cell where the byte is an erased one. -/
def Memory.cell (a : Nat) (b : Byte) (rest : Memory) : Memory :=
  if b = Config.erasedByte then rest else (a, b) :: rest

/-- The store with the byte at one address replaced. -/
def Memory.write : Memory → Nat → Byte → Memory
  | [], a, b => Memory.cell a b []
  | (k, c) :: rest, a, b =>
    if a < k then Memory.cell a b ((k, c) :: rest)
    else if a = k then Memory.cell a b rest
    else (k, c) :: Memory.write rest a b

/-- The canonical form, from a least address on: addresses strictly rise and no cell holds an erased byte. -/
def Memory.wfFrom : Nat → Memory → Bool
  | _, [] => true
  | lo, (k, b) :: rest => decide (lo ≤ k) && decide (b ≠ Config.erasedByte) && Memory.wfFrom (k + 1) rest

/-- The canonical form of the store's bytes. -/
def Memory.wf (m : Memory) : Bool :=
  Memory.wfFrom 0 m

/-- The bytes at `count` addresses from `a` on, in ascending address order. -/
def Memory.readBytes (m : Memory) : Nat → Nat → List Byte
  | _, 0 => []
  | a, count + 1 => m.read a :: Memory.readBytes m (a + 1) count

/-- The store with bytes written from `a` on. -/
def Memory.writeBytes : Memory → Nat → List Byte → Memory
  | m, _, [] => m
  | m, a, b :: rest => Memory.writeBytes (m.write a b) (a + 1) rest

/-- The store after an erase of `count` bytes from `a` on: each becomes 0xFF (R117). -/
def Memory.erase (m : Memory) (a count : Nat) : Memory :=
  m.filter fun c => decide (c.1 < a) || decide (a + count ≤ c.1)

/-- The store after a program from `a` on: each bit is 0 where the bit stored before or the bit programmed is 0 (R117). -/
def Memory.program : Memory → Nat → List Byte → Memory
  | m, _, [] => m
  | m, a, b :: rest => Memory.program (m.write a (m.read a &&& b)) (a + 1) rest

/-- `count` bytes of free values from `a` on, from the `k`-th damaged step (log 8). -/
def damagedBytes (k : Nat) : Nat → Nat → List Byte
  | _, 0 => []
  | a, count + 1 => Config.damagedByte k a :: damagedBytes k (a + 1) count

/-! ### One entry of a table -/

/-- The voice numbered `v`. -/
def State.voice (s : State) (v : Fin 16) : Voice := s.voices.get v

/-- The state with one voice context replaced. -/
def State.setVoice (s : State) (v : Fin 16) (x : Voice) : State :=
  { s with voices := s.voices.set v x }

/-- The state with the body of one voice replaced, its generation kept. -/
def State.setBody (s : State) (v : Fin 16) (b : VoiceBody) : State :=
  s.setVoice v { s.voice v with body := b }

/-- The lane numbered `l`. -/
def State.lane (s : State) (l : Fin 4) : Lane := s.lanes.get l

/-- The state with one lane context replaced. -/
def State.setLane (s : State) (l : Fin 4) (x : Lane) : State :=
  { s with lanes := s.lanes.set l x }

/-- The clip numbered `c`. -/
def State.clip (s : State) (c : Fin 64) : Clip := s.clips.get c

/-- The state with one clip replaced. -/
def State.setClip (s : State) (c : Fin 64) (x : Clip) : State :=
  { s with clips := s.clips.set c x }

/-- The state with one sector table entry replaced. -/
def State.setSector (s : State) (i : Fin 128) (x : Sector) : State :=
  { s with sectors := s.sectors.set i x }

/-- The state with one cue slot replaced. -/
def State.setCue (s : State) (i : Fin 256) (x : Option CueBlock) : State :=
  { s with cues := s.cues.set i x }

/-- The binding numbered `b`. -/
def State.binding (s : State) (b : Fin 32) : Binding := s.trg.bindings.get b

/-- The state with one binding record replaced. -/
def State.setBinding (s : State) (b : Fin 32) (x : Binding) : State :=
  { s with trg := { s.trg with bindings := s.trg.bindings.set b x } }

/-- The state with the age list replaced (R52). -/
def State.setAge (s : State) (age : List (Fin 16)) : State :=
  { s with alc := { s.alc with age := age } }

/-- The state with offer due set (R53). -/
def State.offer (s : State) : State :=
  { s with alc := { s.alc with offerDue := true } }

/-- The state with offer due cleared (R53). -/
def State.clearOffer (s : State) : State :=
  { s with alc := { s.alc with offerDue := false } }

/-- The state with the retry that stands between its question and its answer replaced (R85). -/
def State.setRetry (s : State) (r : Option Retry) : State :=
  { s with alc := { s.alc with retry := r } }

/-- A point at which another command may be taken is reached: whether one is, and the state past the point (R79, R85, log 6). -/
def State.opening (s : State) : Bool × State :=
  (s.openings.headD false, { s with openings := s.openings.tail })

/-- VCE tells LNC that a handle is no longer live (R14): the signal waits behind those already sent. -/
def State.signal (s : State) (h : Handle) : State :=
  { s with signals := s.signals ++ [h] }

/-- The state with a voice's contributions to the frame (R3). -/
def State.setContribution (s : State) (v : Fin 16) (c : Int × Int) : State :=
  { s with out := { s.out with contributions := s.out.contributions.set v c } }

/-! ### Tallies and event records (R151, R152, R156) -/

/-- A tally raised by one; it stays at its greatest value (R156). -/
def State.raise (s : State) (t : Tally) : State :=
  { s with evq := { s.evq with
      tallies := s.evq.tallies.set t.index (min Config.tallyMax (s.evq.tallies.get t.index + 1)) } }

/-- EVQ accepts a record at the tail of the queue (R151). -/
def State.accept (s : State) (kind : EventKind) (subject : Nat) (generation reason : Byte) (value : BitVec 32) : State :=
  { s with evq := { s.evq with
      queue := s.evq.queue ++ [⟨kind, subject, generation, reason, value, s.out.msCount, s.evq.lost⟩]
      lost := 0 } }

/-- EVQ drops a record for a full queue (R152). -/
def State.dropRecord (s : State) : State :=
  let t := s.raise .eventsLost
  { t with evq := { t.evq with lost := min Config.lostMax (t.evq.lost + 1) } }

/-- A block posts a record (R151, R152). -/
def State.post (s : State) (kind : EventKind) (subject : Nat) (generation reason : Byte) (value : BitVec 32) : State :=
  if s.evq.queue.length < Config.queueRecords then s.accept kind subject generation reason value else s.dropRecord

/-- A record's value from its bytes 4 to 7 (R177). -/
def eventValue (b4 b5 b6 b7 : Byte) : BitVec 32 := b4 ++ b5 ++ b6 ++ b7

/-! ### Regions and claims (R42, R50, R120) -/

/-- The bytes of a clip's region (R5, R121). -/
def ClipRecord.regionBytes (r : ClipRecord) : Nat :=
  match r.format with
  | .s8 => r.count
  | .u8 => r.count
  | .s16 => 2 * r.count

/-- A clip's region touches a sector (R42): the sectors of its first and last byte and every one between. -/
def ClipRecord.touches (r : ClipRecord) (sector : Nat) : Bool :=
  decide (r.base / Config.sectorBytes ≤ sector)
    && decide (sector ≤ (r.base + r.regionBytes - 1) / Config.sectorBytes)

/-- The sector table with the use count of every sector a clip touches changed. -/
def changeUse (f : Nat → Nat) (r : ClipRecord) (t : Table Sector 128) : Table Sector 128 :=
  t.mapIdx fun i x => if r.touches i then { x with useCount := f x.useCount } else x

/-- The use counts of a clip and of the sectors it touches changed (R50). -/
def State.changeClaim (s : State) (f : Nat → Nat) (c : Fin 64) : State :=
  let x := s.clip c
  let t := s.setClip c { x with useCount := f x.useCount }
  match x.record with
  | none => t
  | some r => { t with sectors := changeUse f r t.sectors }

/-- A start's claim is taken (R50). -/
def State.takeClaim (s : State) (c : Fin 64) : State :=
  s.changeClaim (· + 1) c

/-- A start's claim is released (R13 step 2, R19 step 2). -/
def State.releaseClaim (s : State) (c : Fin 64) : State :=
  s.changeClaim (· - 1) c

/-- A SETUP COMMIT is in flight (R184). -/
def State.commitInFlight (s : State) : Bool :=
  match s.op with
  | some r => decide (r.op = .commit)
  | none => false

/-- Some sector a clip touches meets a test (R42). -/
def State.touchedSector (s : State) (r : ClipRecord) (p : Sector → Bool) : Bool :=
  s.sectors.anyIdx fun i x => r.touches i && p x

end Sys2Proof.Machine
end

