-- ==== Sys2Proof/Machine/Operands.lean ====
section
/-! DEFINITION. The byte layouts of the link (section 10.7): codes, fields read with their range checks, and the records a
reply or the setup area carries. A failed check gives the offset of the bad field in its record. -/

namespace Sys2Proof.Machine

/-! ### Numbers and codes (R172) -/

/-- A yes/no byte as the part reads it. -/
def yesNo (b : Byte) : Bool := b ≠ 0

/-- A yes/no byte as the part sends it. -/
def boolByte (b : Bool) : Byte := if b then 1 else 0

/-- A number as one byte. -/
def byte1 (n : Nat) : Byte := BitVec.ofNat 8 n

/-- A number as two bytes, most significant first. -/
def be16 (n : Nat) : List Byte := [byte1 (n / 256), byte1 n]

/-- A number as three bytes, most significant first. -/
def be24 (n : Nat) : List Byte := [byte1 (n / 65536), byte1 (n / 256), byte1 n]

/-- A number as four bytes, most significant first. -/
def be32 (n : Nat) : List Byte := byte1 (n / 16777216) :: be24 n

/-- The number some bytes spell, most significant first. -/
def beNat (l : List Byte) : Nat := l.foldl (fun n b => n * 256 + b.toNat) 0

def Status.code : Status → Byte
  | .ok => 0
  | .accepted => 1
  | .badType => 2
  | .badLength => 3
  | .badField => 4
  | .notDefined => 5
  | .inUse => 6
  | .busy => 7
  | .isProtected => 8
  | .noVoice => 9
  | .clipBusy => 10
  | .stale => 11
  | .slotActive => 12
  | .wrongState => 13
  | .notApplied => 14
  | .suspect => 15

def Scale.code : Scale → Byte
  | .x1 => 0
  | .x8 => 1
  | .x64 => 2
  | .x512 => 3

def Scale.ofCode (b : Byte) : Option Scale :=
  match b.toNat with
  | 0 => some .x1
  | 1 => some .x8
  | 2 => some .x64
  | 3 => some .x512
  | _ => none

/-- The frames between move instants (R27). -/
def Scale.frames : Scale → Nat
  | .x1 => 1
  | .x8 => 8
  | .x64 => 64
  | .x512 => 512

def RampMode.code : RampMode → Byte
  | .once => 0
  | .cycle => 1
  | .swing => 2

def RampMode.ofCode (b : Byte) : Option RampMode :=
  match b.toNat with
  | 0 => some .once
  | 1 => some .cycle
  | 2 => some .swing
  | _ => none

def Owner.code : Owner → Byte
  | .link => 0
  | .lane l => byte1 (l.val + 1)

def Format.code : Format → Byte
  | .s8 => 0
  | .u8 => 1
  | .s16 => 2

def Format.ofCode (b : Byte) : Option Format :=
  match b.toNat with
  | 0 => some .s8
  | 1 => some .u8
  | 2 => some .s16
  | _ => none

def LoopMode.code : LoopMode → Byte
  | .none => 0
  | .forward => 1
  | .alternate => 2

def LoopMode.ofCode (b : Byte) : Option LoopMode :=
  match b.toNat with
  | 0 => some .none
  | 1 => some .forward
  | 2 => some .alternate
  | _ => Option.none

def Direction.code : Direction → Byte
  | .forward => 0
  | .backward => 1

def NoVoicePolicy.code : NoVoicePolicy → Nat
  | .skip => 0
  | .retry => 1
  | .fault => 2

def NoVoicePolicy.ofCode (n : Nat) : Option NoVoicePolicy :=
  match n with
  | 0 => some .skip
  | 1 => some .retry
  | 2 => some .fault
  | _ => none

def BusyPolicy.code : BusyPolicy → Byte
  | .ignore => 0
  | .restart => 1
  | .queue => 2

def BusyPolicy.ofCode (b : Byte) : Option BusyPolicy :=
  match b.toNat with
  | 0 => some .ignore
  | 1 => some .restart
  | 2 => some .queue
  | _ => none

def LinkRate.ofCode (b : Byte) : Option LinkRate :=
  match b.toNat with
  | 0 => some .b19200
  | 1 => some .b57600
  | 2 => some .b115200
  | 3 => some .b230400
  | _ => none

def TrigRate.code : TrigRate → Byte
  | .b9600 => 0
  | .b19200 => 1
  | .b38400 => 2

def TrigRate.ofCode (b : Byte) : Option TrigRate :=
  match b.toNat with
  | 0 => some .b9600
  | 1 => some .b19200
  | 2 => some .b38400
  | _ => none

def Report.code : Report → Byte
  | .nothing => 0
  | .unbound => 1
  | .all => 2

def Report.ofCode (b : Byte) : Option Report :=
  match b.toNat with
  | 0 => some .nothing
  | 1 => some .unbound
  | 2 => some .all
  | _ => none

def OutputMode.code : OutputMode → Byte
  | .stereo => 0
  | .mono => 1

def OutputMode.ofCode (b : Byte) : Option OutputMode :=
  match b.toNat with
  | 0 => some .stereo
  | 1 => some .mono
  | _ => none

def MuteState.code : MuteState → Byte
  | .unmuted => 0
  | .muting => 1
  | .muted => 2
  | .unmuting => 3

/-- The mute setting of R143: MUTED in MUTING and MUTED. -/
def MuteState.setting : MuteState → Bool
  | .muting => true
  | .muted => true
  | .unmuted => false
  | .unmuting => false

def EventKind.code : EventKind → Byte
  | .voiceEnd => 1
  | .rampDone => 2
  | .laneIdle => 3
  | .cueDone => 4
  | .mark => 5
  | .startFail => 6
  | .trigger => 7
  | .storeDone => 8
  | .setupLoaded => 9

def EndReason.code : EndReason → Byte
  | .clipEnd => 1
  | .released => 2
  | .stopped => 3
  | .stolen => 4
  | .superseded => 5
  | .cancelled => 6

/-- The end reason a cut reports (R11). -/
def CutReason.endReason : CutReason → EndReason
  | .stopped => .stopped
  | .stolen => .stolen
  | .superseded => .superseded

def StoreOp.code : StoreOp → Byte
  | .erase => 0
  | .program => 1
  | .commit => 2

def StoreResult.code : StoreResult → Byte
  | .ok => 0
  | .timeout => 1
  | .verifyFail => 2

def LaneFault.code : LaneFault → Byte
  | .clipNotDefined => 1
  | .clipBusy => 2
  | .clipSuspect => 3
  | .noVoice => 4
  | .nestedRepeat => 5
  | .runaway => 6

def NoticeReason.code : NoticeReason → Byte
  | .runEnd => 1
  | .pause => 2

/-- The reason codes of LANE_IDLE that no notice is held for (R177). -/
def laneIdleFault : Byte := 3
def laneIdleAbort : Byte := 4

def originCode : Option Origin → Byte
  | none => 0
  | some .link => 1
  | some (.binding _) => 2
  | some .autostart => 3

def originBinding : Option Origin → Byte
  | some (.binding b) => byte1 b.val
  | _ => 0

def LaneState.code : LaneState → Byte
  | .idle => 0
  | .running => 1
  | .waiting => 2
  | .starved => 3
  | .paused => 4
  | .faulted => 5

def handleBytes : Option Handle → List Byte
  | none => [0xFF, 0]
  | some h => [byte1 h.voice.val, h.generation]

/-! ### Fields with their range checks -/

/-- A release from its rate and scale code: rate 0 is none and its scale is ignored (R40, R123). The offset given is that
of the scale. -/
def releaseOf (rate scale : Byte) (scaleOffset : Nat) : Except Nat (Option Release) :=
  if rate.toNat = 0 then .ok none
  else match Scale.ofCode scale with
    | none => .error scaleOffset
    | some sc => .ok (some ⟨rate.toNat, sc⟩)

def releaseBytes : Option Release → List Byte
  | none => [0, 0]
  | some r => [byte1 r.rate, r.scale.code]

/-- The ramp fields, with the offset of the target; the rate, scale and mode follow it (R20, R40, R60). -/
def rampOf (target : Half) (rate scale mode : Byte) (notify : Bool) (offset : Nat) : Except Nat RampSpec :=
  if Config.maxLevel < target.toNat then .error offset
  else if rate.toNat = 0 then .error (offset + 2)
  else match Scale.ofCode scale with
    | none => .error (offset + 3)
    | some sc => match RampMode.ofCode mode with
      | none => .error (offset + 4)
      | some m => .ok ⟨target.toNat, rate.toNat, sc, m, notify⟩

/-- The initial ramp of a start order, absent when flags bit 2 is 0 (R175). -/
def initialRampOf (w : OrderWire) : Except Nat (Option RampSpec) :=
  if w.flags.getLsbD 2 then
    (rampOf w.rampTarget w.rampRate w.rampScale w.rampMode (yesNo w.rampNotify) 12).map some
  else .ok none

/-- The field checks of VOICE PLAY (R40), in the order of the payload. -/
def orderOf (w : OrderWire) : Except Nat StartOrder :=
  match finOf 64 w.clip.toNat with
  | none => .error 0
  | some clip =>
  match finOf 8 w.priority.toNat with
  | none => .error 1
  | some priority =>
  match finOf 8 w.group.toNat with
  | none => .error 2
  | some group =>
  if Config.maxLevel < w.level.toNat then .error 5 else
  match finOf 16 w.pan.toNat with
  | none => .error 7
  | some pan =>
  match releaseOf w.releaseRate w.releaseScale 10 with
  | .error i => .error i
  | .ok release =>
  match initialRampOf w with
  | .error i => .error i
  | .ok ramp =>
    .ok { clip, priority, group, step := w.step.toNat, level := w.level.toNat, pan, loopCount := w.loopCount.toNat,
          release, reverse := w.flags.getLsbD 0, noteEnd := w.flags.getLsbD 1, ramp }

/-- The last byte of a region of `count` samples from `base` on (R123). -/
def lastByteOf (format : Format) (base count : Nat) : Nat :=
  match format with
  | .s8 => base + count - 1
  | .u8 => base + count - 1
  | .s16 => base + 2 * count - 1

/-- The loop fields of a clip record (R123 checks 6 and 7). -/
def loopOf (mode : LoopMode) (count start finish : Nat) : Except Nat (Option Loop) :=
  match mode with
  | .none => .ok none
  | _ =>
    if count < start + 2 then .error 9
    else if finish ≤ start ∨ count ≤ finish then .error 12
    else .ok (some ⟨start, finish⟩)

/-- The field checks of a clip record from its format on (R123 checks 2 to 9). -/
def clipRecordOf (w : ClipWire) : Except Nat ClipRecord :=
  match Format.ofCode w.format with
  | none => .error 1
  | some format =>
  if w.base.toNat < Config.sampleArea ∨ Config.storeBytes ≤ w.base.toNat
      ∨ (format = .s16 ∧ w.base.toNat % 2 = 1) then .error 2
  else if w.count.toNat < 2 ∨ Config.storeBytes ≤ lastByteOf format w.base.toNat w.count.toNat then .error 5 else
  match LoopMode.ofCode w.loopMode with
  | none => .error 8
  | some mode =>
  match loopOf mode w.count.toNat w.loopStart.toNat w.loopEnd.toNat with
  | .error i => .error i
  | .ok loop =>
  if w.step.toNat = 0 then .error 15 else
  match releaseOf w.releaseRate w.releaseScale 18 with
  | .error i => .error i
  | .ok release =>
    .ok { base := w.base.toNat, count := w.count.toNat, format, loopMode := mode, loop, step := w.step.toNat, release }

/-- Offsets 1 to 18 of a clip record (R175). -/
def clipBytes (r : ClipRecord) : List Byte :=
  r.format.code :: be24 r.base ++ be24 r.count ++ [r.loopMode.code]
    ++ (match r.loop with
        | none => be24 0 ++ be24 0
        | some l => be24 l.start ++ be24 l.finish)
    ++ be16 r.step ++ releaseBytes r.release

/-- A clip as CLIP READ and the directory section give it: the defined byte and offsets 1 to 18, all 0 when EMPTY. -/
def definedClipBytes : Option ClipRecord → List Byte
  | none => 0 :: List.replicate 18 0
  | some r => 1 :: clipBytes r

/-- The clip record that offsets 1 to 18 spell; the clip number is not among them. -/
def clipWireOf (b : List Byte) : ClipWire :=
  { clip := 0, format := b.getD 0 0
    base := BitVec.ofNat 24 (beNat ((b.drop 1).take 3)), count := BitVec.ofNat 24 (beNat ((b.drop 4).take 3))
    loopMode := b.getD 7 0
    loopStart := BitVec.ofNat 24 (beNat ((b.drop 8).take 3)), loopEnd := BitVec.ofNat 24 (beNat ((b.drop 11).take 3))
    step := BitVec.ofNat 16 (beNat ((b.drop 14).take 2)), releaseRate := b.getD 16 0, releaseScale := b.getD 17 0 }

/-- The field checks of a binding record from its lane on (R111). -/
def bindingOf (w : BindingWire) : Except Nat Binding :=
  match finOf 4 w.lane.toNat with
  | none => .error 6
  | some lane =>
  match BusyPolicy.ofCode w.policy with
  | none => .error 9
  | some policy =>
    .ok { enabled := yesNo w.enabled, code := w.code, lane, entry := w.entry.toFin, clear := yesNo w.clear, policy,
          holdoff := w.holdoff.toNat, holdoffLeft := 0 }

/-- Offsets 1 to 10 of a binding record (R176). -/
def bindingBytes (b : Binding) : List Byte :=
  boolByte b.enabled :: be32 b.code.toNat
    ++ [byte1 b.lane.val, byte1 b.entry.val, boolByte b.clear, b.policy.code, byte1 b.holdoff]

/-- The binding record that offsets 1 to 10 spell. -/
def bindingWireOf (b : List Byte) : BindingWire :=
  { binding := 0, enabled := b.getD 0 0, code := BitVec.ofNat 32 (beNat ((b.drop 1).take 4)), lane := b.getD 5 0
    entry := b.getD 6 0, clear := b.getD 7 0, policy := b.getD 8 0, holdoff := b.getD 9 0 }

/-- The settings of OUTPUT SET; `muted` is the mute request (R147). -/
structure OutputSettings where
  mode : OutputMode
  left : Nat
  right : Nat
  muted : Bool
  deadZone : Nat
deriving DecidableEq, Repr

/-- The field checks of OUTPUT SET (R147). -/
def outputOf (mode : Byte) (left right : Half) (mute deadZone : Byte) : Except Nat OutputSettings :=
  match OutputMode.ofCode mode with
  | none => .error 0
  | some m =>
    if Config.maxLevel < left.toNat then .error 1
    else if Config.maxLevel < right.toNat then .error 3
    else if 1 < mute.toNat then .error 5
    else if 15 < deadZone.toNat then .error 6
    else .ok ⟨m, left.toNat, right.toNat, yesNo mute, deadZone.toNat⟩

/-- The settings of TRIGGER SET (R114). -/
structure TriggerSettings where
  rate : TrigRate
  report : Report
deriving DecidableEq, Repr

/-- The field checks of TRIGGER SET (R114). -/
def triggerOf (rate report : Byte) : Except Nat TriggerSettings :=
  match TrigRate.ofCode rate with
  | none => .error 0
  | some r => match Report.ofCode report with
    | none => .error 1
    | some p => .ok ⟨r, p⟩

/-! ### Cue blocks (R60, R176) -/

/-- The operands of a PLAY block, in the order of R58. Offset 15 packs the release scale, REVERSE, NOTE_END and the
policy. With release rate 0 the scale bits are not kept (log 13). -/
def playOf (at' : Nat → Byte) : Except Nat CueOp :=
  match finOf 64 (at' 4).toNat with
  | none => .error 4
  | some clip =>
  match finOf 4 (at' 5).toNat with
  | none => .error 5
  | some h =>
  match finOf 8 (at' 6).toNat with
  | none => .error 6
  | some priority =>
  match finOf 8 (at' 7).toNat with
  | none => .error 7
  | some group =>
  let level := beNat [at' 10, at' 11]
  if Config.maxLevel < level then .error 10 else
  match finOf 16 (at' 12).toNat with
  | none => .error 12
  | some pan =>
  let packed := at' 15
  match releaseOf (at' 14) (byte1 (packed.toNat % 4)) 15 with
  | .error i => .error i
  | .ok release =>
  match NoVoicePolicy.ofCode (packed.toNat / 16 % 4) with
  | none => .error 15
  | some policy =>
    .ok (.play ⟨h, { clip, priority, group, step := beNat [at' 8, at' 9], level, pan, loopCount := (at' 13).toNat, release,
                     reverse := packed.getLsbD 2, noteEnd := packed.getLsbD 3, ramp := none }, policy⟩)

/-- A block's op with its operands (R58, R60 checks 1 and 4); `at' i` is the byte at block offset i. -/
def cueOpOf (at' : Nat → Byte) : Except Nat CueOp :=
  let slotH (f : Fin 4 → CueOp) : Except Nat CueOp :=
    match finOf 4 (at' 4).toNat with
    | none => .error 4
    | some h => .ok (f h)
  match (at' 0).toNat with
  | 1 => playOf at'
  | 2 =>
    match finOf 4 (at' 4).toNat with
    | none => .error 4
    | some h =>
      (rampOf (at' 5 ++ at' 6) (at' 7) (at' 8) (at' 9) (yesNo (at' 10)) 5).map (CueOp.ramp h)
  | 3 => slotH .release
  | 4 => slotH .stop
  | 5 =>
    let t := beNat [at' 4, at' 5]
    if t = 0 then .error 4 else .ok (.waitTime t)
  | 6 => slotH .waitVoice
  | 7 => .ok (.waitCode (eventValue (at' 4) (at' 5) (at' 6) (at' 7)))
  | 8 => if (at' 5).toNat = 0 then .error 5 else .ok (.repeatTo (at' 4).toFin (at' 5).toNat)
  | 9 => .ok (.mark (at' 4 ++ at' 5))
  | _ => .error 0

/-- The validation of a cue block (R60), from its sixteen bytes: op, flags, quiet time, operands. -/
def cueBlockOf (block : List Byte) : Except Nat CueBlock :=
  let at' (i : Nat) : Byte := block.getD i 0
  let last := (at' 1).getLsbD 0
  let pause := (at' 1).getLsbD 1
  if (at' 0).toNat = 0 ∨ 9 < (at' 0).toNat then .error 0
  else if last && pause || decide ((at' 0).toNat = 8) && (last || pause) then .error 1
  else if 31 < (at' 3).toNat then .error 3
  else match cueOpOf at' with
    | .error i => .error i
    | .ok op => .ok { op, last, pause, note := (at' 1).getLsbD 2, link := (at' 2).toFin, quiet := (at' 3).toNat }

/-- The packed byte of a PLAY block (R176). -/
def packedByte (p : PlayOperands) : Byte :=
  byte1 ((match p.order.release with
          | none => 0
          | some r => r.scale.code.toNat)
    + (if p.order.reverse then 4 else 0) + (if p.order.noteEnd then 8 else 0) + 16 * p.policy.code)

/-- The op code and the operand bytes an op uses (R176). -/
def cueOpBytes : CueOp → Byte × List Byte
  | .play p =>
    (1, [byte1 p.order.clip.val, byte1 p.h.val, byte1 p.order.priority.val, byte1 p.order.group.val]
      ++ be16 p.order.step ++ be16 p.order.level ++ [byte1 p.order.pan.val, byte1 p.order.loopCount]
      ++ [(releaseBytes p.order.release).getD 0 0, packedByte p])
  | .ramp h r => (2, byte1 h.val :: be16 r.target ++ [byte1 r.rate, r.scale.code, r.mode.code, boolByte r.notify])
  | .release h => (3, [byte1 h.val])
  | .stop h => (4, [byte1 h.val])
  | .waitTime t => (5, be16 t)
  | .waitVoice h => (6, [byte1 h.val])
  | .waitCode c => (7, be32 c.toNat)
  | .repeatTo t n => (8, [byte1 t.val, byte1 n])
  | .mark v => (9, be16 v.toNat)

/-- A cue slot in sixteen bytes: unused operand bytes and an EMPTY slot are 0 (R57, R72, R176). -/
def cueBytes : Option CueBlock → List Byte
  | none => List.replicate 16 0
  | some b =>
    let (code, operands) := cueOpBytes b.op
    let flags := byte1 ((if b.last then 1 else 0) + (if b.pause then 2 else 0) + (if b.note then 4 else 0))
    [code, flags, byte1 b.link.val, byte1 b.quiet] ++ operands ++ List.replicate (12 - operands.length) 0

/-! ### Status records (R177 to R179) -/

/-- An event record in eleven bytes (R177). -/
def eventBytes (r : EventRecord) : List Byte :=
  [r.kind.code, byte1 r.subject, r.generation, r.reason] ++ be32 r.value.toNat ++ be16 r.time.toNat ++ [byte1 r.lost]

/-- The ramp fields of a voice status record, offsets 24 to 28 (R178). -/
def rampStatus : Option Ramp → List Byte
  | none => [0xFF, 0, 0, 0, 0]
  | some r => r.mode.code :: be16 r.target ++ [byte1 r.rate, r.scale.code]

/-- Offsets 3 to 28 of the voice status record of a voice that is not FREE (R178). -/
def soundingStatus (x : Sounding) : List Byte :=
  byte1 x.clip.val :: be24 (x.pos / 4096) ++ be16 (x.pos % 4096) ++ [x.direction.code] ++ be16 x.step
    ++ [x.loopMode.code, byte1 x.loops, boolByte x.exit] ++ be16 x.level ++ releaseBytes x.release
    ++ [byte1 x.pan.val, byte1 x.priority.val, byte1 x.group.val, boolByte x.noteEnd, x.owner.code]
    ++ rampStatus x.ramp

/-- Offsets 30 to 35 of the voice status record (R178). -/
def cutStatus (c : Cut) (successor : Option Successor) : List Byte :=
  [byte1 c.framesLeft, c.reason.endReason.code, c.generation]
    ++ (match successor with
        | none => [0, 0, 0]
        | some x => [1, x.generation, x.owner.code])

/-- The voice status record (R178). -/
def voiceStatusBytes (v : Fin 16) (x : Voice) : List Byte :=
  let noCut := List.replicate 6 (0 : Byte)
  match x.body with
  | .free => [byte1 v.val, 0, x.generation] ++ List.replicate 21 0 ++ rampStatus none ++ [0xFF] ++ noCut
  | .playing y => [byte1 v.val, 1, x.generation] ++ soundingStatus y ++ [0xFF] ++ noCut
  | .releasing y => [byte1 v.val, 2, x.generation] ++ soundingStatus y ++ [0xFF] ++ noCut
  | .held y .playing => [byte1 v.val, 3, x.generation] ++ soundingStatus y ++ [1] ++ noCut
  | .held y .releasing => [byte1 v.val, 3, x.generation] ++ soundingStatus y ++ [2] ++ noCut
  | .cutting y c z => [byte1 v.val, 4, x.generation] ++ soundingStatus y ++ [0xFF] ++ cutStatus c z

/-- The wait fields of a lane status record, offsets 16 to 20 (R178); a content of two bytes stands at 17 and 18, and 0 is sent
at 19 and 20 (log 27). -/
def waitStatus : Option Wait → List Byte
  | none => [0, 0, 0, 0, 0]
  | some (.time t) => 1 :: be16 t ++ [0, 0]
  | some (.voice h) => 2 :: handleBytes (some h) ++ [0, 0]
  | some (.code c) => 3 :: be32 c.toNat
  | some (.start o) => [4, byte1 o.clip.val, byte1 o.priority.val, 0, 0]

/-- A byte for an absent or present slot number. -/
def slotByte : Option (Fin 256) → Byte
  | none => 0
  | some s => byte1 s.val

/-- The presence byte of a lane status record (R178). -/
def presenceByte (x : Lane) : Byte :=
  byte1 ((if x.slot.isSome then 1 else 0) + (if x.origin.isSome then 2 else 0) + (if x.rep.isSome then 4 else 0)
    + (if x.wait.isSome then 8 else 0) + (if x.notice.isSome then 16 else 0)
    + (if x.pendingStart.isSome then 32 else 0) + (if x.fault.isSome then 64 else 0))

/-- The lane status record (R178). -/
def laneStatusBytes (l : Fin 4) (x : Lane) : List Byte :=
  [byte1 l.val, x.state.code, presenceByte x, slotByte x.slot, originCode x.origin, originBinding x.origin]
    ++ handleBytes (x.handles.get 0) ++ handleBytes (x.handles.get 1) ++ handleBytes (x.handles.get 2)
    ++ handleBytes (x.handles.get 3)
    ++ (match x.rep with
        | none => [0, 0]
        | some r => [byte1 r.owner.val, byte1 r.remaining])
    ++ waitStatus x.wait ++ [boolByte x.pauseRequested, byte1 x.budget]
    ++ (match x.notice with
        | none => [0, 0, 0]
        | some n => [n.reason.code, byte1 n.msLeft, byte1 n.slot.val])
    ++ (match x.pendingStart with
        | none => [0, 0, 0]
        | some p => [byte1 p.binding.val, byte1 p.entry.val, boolByte p.clear])
    ++ (match x.fault with
        | none => [0, 0]
        | some (f, slot) => [f.code, byte1 slot.val])

/-- The operation fields of the store status record, offsets 0 to 6 (R179). -/
def opStatus : Option OpRecord → List Byte
  | none => [0xFF, 0, 0xFF, 0xFF, 0xFF, 0, 0xFF]
  | some r =>
    [r.op.code, byte1 r.sector.val] ++ (match r.page with
        | none => [0xFF, 0xFF, 0xFF]
        | some a => be24 a)
      ++ [byte1 r.limitLeft, (match r.commitStep with
        | none => 0xFF
        | some k => byte1 k)]

/-- The store status record (R179). -/
def storeStatusBytes (s : State) : List Byte :=
  opStatus s.op ++ s.sectors.cells.flatMap fun x =>
    [byte1 ((if x.suspect then 1 else 0) + (if x.busy then 2 else 0)), byte1 x.useCount]

end Sys2Proof.Machine
end

