-- ==== Sys2Proof/Machine/Levels.lean ====
section
/-! DEFINITION. The level law, panning and the advance of a ramp (chapter 2). -/

namespace Sys2Proof.Machine

/-! ### The level law (R24) -/

/-- `g` is at most 65,536 × 2^((L − 4095)/256) rounded to the nearest whole number, a half upward: `g − 1/2` is at most the
exact value, which raised to the power 256 and freed of its fractions reads so. -/
def gainAtMost (level g : Nat) : Bool :=
  decide ((2 * g - 1) ^ 256 ≤ 2 ^ (level + 257))

/-- The greatest `g` from `g` up that passes `gainAtMost`, found bit by bit from `2 ^ (bits - 1)` down. -/
def gainSearch (level : Nat) : Nat → Nat → Nat
  | 0, g => g
  | bits + 1, g => gainSearch level bits (if gainAtMost level (g + 2 ^ bits) then g + 2 ^ bits else g)

/-- The gain value G(L) in units of 1/65,536 (R24). -/
def gain (level : Nat) : Nat :=
  if level = 0 then 0 else gainSearch level 17 0

/-! ### Panning (R25, R26) -/

/-- The left attenuation A(p) (R25); none is silence. -/
def attenuation (p : Nat) : Option Nat :=
  ([some 0, some 2, some 6, some 12, some 20, some 30, some 43, some 58, some 76, some 97, some 122, some 152, some 190,
    some 240, some 320, none] : List (Option Nat)).getD p none

/-- An effective level: the level less the side's attenuation, not below 0, and 0 for silence (R25). -/
def sideLevel (level : Nat) : Option Nat → Nat
  | none => 0
  | some a => level - a

/-- The effective left level (R25). -/
def leftLevel (level : Nat) (pan : Fin 16) : Nat := sideLevel level (attenuation pan.val)

/-- The effective right level (R25): the left attenuation for pan 15 − p. -/
def rightLevel (level : Nat) (pan : Fin 16) : Nat := sideLevel level (attenuation (15 - pan.val))

/-- A value scaled by the gain of a level, rounded toward zero (R26, R140). -/
def scaleBy (x : Int) (level : Nat) : Int := Int.tdiv (x * (gain level : Int)) 65536

/-- A voice's two contributions from its sample (R26). -/
def panned (sample : Int) (level : Nat) (pan : Fin 16) : Int × Int :=
  (scaleBy sample (leftLevel level pan), scaleBy sample (rightLevel level pan))

/-! ### Ramps (R28 to R31, R33) -/

/-- A level moved toward a target by a rate, stopping at it (R28). -/
def moveToward (level target rate : Nat) : Nat :=
  if level < target then min (level + rate) target else max (level - rate) target

/-- A ramp set on a voice whose level is `level` (R33). -/
def RampSpec.set (r : RampSpec) (level : Nat) : Ramp :=
  { mode := r.mode, base := level, target := r.target, rate := r.rate, scale := r.scale, sub := 0, notify := r.notify }

/-- The release ramp from a level (R34). -/
def Release.ramp (r : Release) (level : Nat) : Ramp :=
  { mode := .once, base := level, target := 0, rate := r.rate, scale := r.scale, sub := 0, notify := false }

/-- What a move instant makes of a level and its ramp; no ramp means that it arrived (R28 to R31). -/
def moveInstant (level : Nat) (r : Ramp) : Nat × Option Ramp :=
  if level = r.target then
    match r.mode with
    | .once => (level, none)
    | .cycle => (r.base, some r)
    | .swing => (moveToward level r.base r.rate, some { r with base := r.target, target := r.base })
  else
    let l := moveToward level r.target r.rate
    if r.mode = .once ∧ l = r.target then (l, none) else (l, some r)

/-- The advance of a ramp that will be a move instant (R28). -/
def Ramp.movesNext (r : Ramp) : Bool := decide (r.scale.frames ≤ r.sub + 1)

/-- One advance of a ramp (R28). -/
def rampAdvance (level : Nat) (r : Ramp) : Nat × Option Ramp :=
  if r.movesNext then moveInstant level { r with sub := 0 } else (level, some { r with sub := r.sub + 1 })

end Sys2Proof.Machine
end

