-- ==== Sys2Proof/Machine/Voices.lean ====
section
/-! DEFINITION. The voices: samples, loops, the frame work of one voice, how a start ends, handles and the operations on
a start (chapters 1 and 2). -/

namespace Sys2Proof.Machine

/-! ### Positions and samples (R4, R5) -/

/-- The integer position. -/
def Sounding.int (x : Sounding) : Nat := x.pos / 4096

/-- The fraction of the position, in 1/4096 sample. -/
def Sounding.frac (x : Sounding) : Nat := x.pos % 4096

/-- The loop is active for the choice of a neighbour (R4). -/
def Sounding.loopActive (x : Sounding) (l : Loop) : Bool :=
  decide (x.int ≤ l.finish) && !x.exit && decide (x.loops ≠ 1)

/-- The current sample (R4). -/
def Sounding.current (x : Sounding) : Nat :=
  match x.direction with
  | .forward => x.int
  | .backward => if x.frac = 0 then x.int else x.int + 1

/-- The weight: how far past the current sample the voice has travelled (R4). -/
def Sounding.weight (x : Sounding) : Nat :=
  match x.direction with
  | .forward => x.frac
  | .backward => if x.frac = 0 then 0 else 4096 - x.frac

/-- The neighbour of the current sample while moving forward; the rows of R4's table are taken in order (log 12). -/
def Sounding.neighbourForward (x : Sounding) (r : ClipRecord) : Nat :=
  let c := x.current
  if c + 1 = r.count then c
  else match x.loopMode, r.loop with
    | .forward, some l => if c = l.finish ∧ x.loopActive l then l.start else c + 1
    | .alternate, some l => if c = l.finish ∧ x.loopActive l then c else c + 1
    | _, _ => c + 1

/-- The neighbour of the current sample while moving backward (R4). -/
def Sounding.neighbourBackward (x : Sounding) (r : ClipRecord) : Nat :=
  let c := x.current
  if c = 0 then c
  else match x.loopMode, r.loop with
    | .alternate, some l => if c = l.start then c else c - 1
    | _, _ => c - 1

/-- The neighbour of the current sample (R4). -/
def Sounding.neighbour (x : Sounding) (r : ClipRecord) : Nat :=
  match x.direction with
  | .forward => x.neighbourForward r
  | .backward => x.neighbourBackward r

/-- Sample `i` of a clip, normalised to a signed 16-bit value (R5). -/
def readSample (m : Memory) (r : ClipRecord) (i : Nat) : Int :=
  match r.format with
  | .s8 => (m.read (r.base + i)).toInt * 256
  | .u8 => ((m.read (r.base + i)).toNat - 128 : Int) * 256
  | .s16 => (m.read (r.base + 2 * i) ++ m.read (r.base + 2 * i + 1) : BitVec 16).toInt

/-- The value between two samples, rounded toward minus infinity (R4). -/
def interpolate (a b : Int) (w : Nat) : Int := a + Int.fdiv ((b - a) * (w : Int)) 4096

/-- The frame's sample (R4). -/
def frameSample (m : Memory) (r : ClipRecord) (x : Sounding) : Int :=
  interpolate (readSample m r x.current) (readSample m r (x.neighbour r)) x.weight

/-- A voice's two contributions before any cut (R3 steps 1 and 2). -/
def soundingContribution (m : Memory) (r : ClipRecord) (x : Sounding) : Int × Int :=
  panned (frameSample m r x) x.level x.pan

/-! ### Loops and the clip end (R6 to R10) -/

/-- More crossings and reflections than one frame's step can bring (R10). -/
def loopFuel : Nat := 64

/-- Loops remaining after a crossing of LE without exit (R8). -/
def loopsAfter (loops : Nat) : Nat := if 1 < loops then loops - 1 else loops

/-- The series of crossings of LE of a FORWARD loop (R8, R10), positions in 1/4096 sample. -/
def wrapSeries (l : Loop) (exit : Bool) : Nat → Int → Nat → Int × Nat
  | 0, pos, loops => (pos, loops)
  | fuel + 1, pos, loops =>
    if pos < ((l.finish + 1) * 4096 : Nat) then (pos, loops)
    else if exit || decide (loops = 1) then (pos, loops)
    else wrapSeries l exit fuel (pos - ((l.finish - l.start + 1) * 4096 : Nat)) (loopsAfter loops)

/-- The series of crossings of LE and LS of an ALTERNATE loop (R9, R10), positions in 1/4096 sample. -/
def turnSeries (l : Loop) (exit : Bool) : Nat → Direction → Int → Nat → Direction × Int × Nat
  | 0, dir, pos, loops => (dir, pos, loops)
  | fuel + 1, .forward, pos, loops =>
    if pos < ((l.finish + 1) * 4096 : Nat) then (.forward, pos, loops)
    else if exit || decide (loops = 1) then (.forward, pos, loops)
    else turnSeries l exit fuel .backward ((2 * l.finish * 4096 : Nat) - pos) (loopsAfter loops)
  | fuel + 1, .backward, pos, loops =>
    if ((l.start * 4096 : Nat) : Int) ≤ pos then (.backward, pos, loops)
    else turnSeries l exit fuel .forward ((2 * l.start * 4096 : Nat) - pos) loops

/-- The loop rules (R8, R9) on a position that the step has just moved. A forward voice whose position already lay above
LE does not cross it. -/
def applyLoop (x : Sounding) (r : ClipRecord) (pos : Int) : Direction × Int × Nat :=
  match x.loopMode, r.loop, x.direction with
  | .forward, some l, .forward =>
    if x.int ≤ l.finish then
      let (p, k) := wrapSeries l x.exit loopFuel pos x.loops
      (.forward, p, k)
    else (.forward, pos, x.loops)
  | .alternate, some l, .forward =>
    if x.int ≤ l.finish then turnSeries l x.exit loopFuel .forward pos x.loops else (.forward, pos, x.loops)
  | .alternate, some l, .backward => turnSeries l x.exit loopFuel .backward pos x.loops
  | _, _, dir => (dir, pos, x.loops)

/-- The position the step of R3 gives, before any loop rule. -/
def Sounding.stepped (x : Sounding) : Int :=
  match x.direction with
  | .forward => (x.pos : Int) + x.step
  | .backward => (x.pos : Int) - x.step

/-- The clip end test (R6, R7) on the position that stands after the loop rules. -/
def clipEnds (r : ClipRecord) (dir : Direction) (pos : Int) : Bool :=
  match dir with
  | .forward => decide (((r.count * 4096 : Nat) : Int) ≤ pos)
  | .backward => decide (pos < 0)

/-- Steps 3 and 4 of R3: the position advanced, the loop rules and the clip end test; none is a clip end. -/
def Sounding.advance (x : Sounding) (r : ClipRecord) : Option Sounding :=
  let (dir, pos, loops) := applyLoop x r x.stepped
  if clipEnds r dir pos then none else some { x with direction := dir, pos := pos.toNat, loops }

/-! ### How a start ends (R13, R19) -/

/-- The handle of a voice's sounding start of this generation is live (R14): no successor stands in its place. -/
def Voice.namesSounding (x : Voice) (generation : Byte) : Bool :=
  match x.body with
  | .cutting _ _ (some _) => false
  | _ => decide (generation = x.generation)

/-- The end procedure of a sounding start, steps 1 to 3 (R13): VOICE_END, the claim released, the signal to LNC. The
signal for a start being cut was sent already if a successor has been attached since (R49). -/
def State.endStart (s : State) (v : Fin 16) (x : Sounding) (generation : Byte) (reason : EndReason) : State :=
  let s := if x.noteEnd then
      s.post .voiceEnd v.val generation reason.code (eventValue x.owner.code 0 0 0) else s
  let s := s.releaseClaim x.clip
  if (s.voice v).namesSounding generation then s.signal ⟨v, generation⟩ else s

/-- Step 4 of R13: the voice leaves the age list and becomes FREE, and ALC is told so (R53). -/
def State.freeVoice (s : State) (v : Fin 16) : State :=
  ((s.setAge (s.alc.age.erase v)).setBody v .free).offer

/-- A sounding start of a voice that is not cutting ends, and the voice becomes FREE (R13). -/
def State.endFree (s : State) (v : Fin 16) (x : Sounding) (reason : EndReason) : State :=
  (s.endStart v x (s.voice v).generation reason).freeVoice v

/-- A voice stops its start for STOP, a steal or the group rule (R17): a sounding one is cut, a held one ends at once. -/
def State.stopStart (s : State) (v : Fin 16) (reason : CutReason) : State :=
  let x := s.voice v
  match x.body with
  | .playing y => s.setBody v (.cutting y ⟨Config.cutFrames, reason, x.generation⟩ none)
  | .releasing y => s.setBody v (.cutting y ⟨Config.cutFrames, reason, x.generation⟩ none)
  | .held y _ => s.endFree v y reason.endReason
  | .free => s
  | .cutting _ _ _ => s

/-- A successor is cancelled (R19): VOICE_END, its claim released, the signal to LNC, and ALC told. -/
def State.cancelSuccessor (s : State) (v : Fin 16) (reason : EndReason) : State :=
  match (s.voice v).body with
  | .cutting y c (some z) =>
    let s := if z.order.noteEnd then
        s.post .voiceEnd v.val z.generation reason.code (eventValue z.owner.code 0 0 0) else s
    let s := s.releaseClaim z.order.clip
    ((s.setBody v (.cutting y c none)).signal ⟨v, z.generation⟩).offer
  | _ => s

/-- The fields of a start that begins on a voice (R12, R48): REVERSE is taken when the clip's loop mode is NONE. -/
def StartOrder.begin (o : StartOrder) (owner : Owner) (r : ClipRecord) : Sounding :=
  let reverse := o.reverse && decide (r.loopMode = .none)
  { clip := o.clip
    pos := if reverse then (r.count - 1) * 4096 else 0
    direction := if reverse then .backward else .forward
    step := if o.step = 0 then r.step else o.step
    loopMode := r.loopMode
    loops := o.loopCount
    exit := false
    level := o.level
    ramp := o.ramp.map fun p => p.set o.level
    release := match o.release with
      | some k => some k
      | none => r.release
    pan := o.pan
    priority := o.priority
    group := o.group
    noteEnd := o.noteEnd
    owner }

/-- A cut completes (R12): the cut start ends, and the successor begins or the voice becomes FREE. A successor's clip is
DEFINED while its claim stands (R122); were it not, the voice would become FREE. -/
def State.completeCut (s : State) (v : Fin 16) (y : Sounding) (c : Cut) (successor : Option Successor) : State :=
  let t := s.endStart v y c.generation c.reason.endReason
  match successor with
  | none => t.freeVoice v
  | some z => match (t.clip z.order.clip).record with
    | none => t.freeVoice v
    | some r => t.setBody v (.playing (z.order.begin z.owner r))

/-! ### The frame work of one voice (R3, R11) -/

/-- A ONCE ramp arrives (R29 step 1): RAMP_DONE if notify is yes. -/
def State.rampArrives (s : State) (v : Fin 16) (x : Sounding) (r : Ramp) (level : Nat) : State :=
  if r.notify then
    s.post .rampDone v.val (s.voice v).generation 0
      (eventValue (byte1 (level / 256)) (byte1 level) x.owner.code 0)
  else s

/-- Step 5 of R3 for a start that plays on: its ramp advances. `body` is the state the voice is in. -/
def State.advanceRamp (s : State) (v : Fin 16) (x : Sounding) (body : Sounding → VoiceBody) (releasing : Bool) : State :=
  match x.ramp with
  | none => s.setBody v (body x)
  | some r =>
    match rampAdvance x.level r with
    | (level, some r') => s.setBody v (body { x with level, ramp := some r' })
    | (level, none) =>
      let y := { x with level, ramp := none }
      let s := (s.rampArrives v x r level).setBody v (body y)
      if releasing then s.endFree v y .released else s

/-- The frame work of a PLAYING or RELEASING voice (R3). -/
def State.soundingFrame (s : State) (v : Fin 16) (x : Sounding) (body : Sounding → VoiceBody) (releasing : Bool) : State :=
  match (s.clip x.clip).record with
  | none => s.setContribution v (0, 0)
  | some r =>
    let s := s.setContribution v (soundingContribution s.mem r x)
    match x.advance r with
    | none => s.endFree v x .clipEnd
    | some y => s.advanceRamp v y body releasing

/-- A contribution of a cut frame: times frames left / 32, rounded toward zero (R11). -/
def cutScaled (c : Int) (framesLeft : Nat) : Int := Int.tdiv (c * (framesLeft : Int)) 32

/-- The cut frame of a CUTTING voice (R11). -/
def State.cutFrame (s : State) (v : Fin 16) (x : Sounding) (c : Cut) (z : Option Successor) : State :=
  match (s.clip x.clip).record with
  | none => s.setContribution v (0, 0)
  | some r =>
    let (a, b) := soundingContribution s.mem r x
    let s := s.setContribution v (cutScaled a c.framesLeft, cutScaled b c.framesLeft)
    match x.advance r with
    | none => s.completeCut v x c z
    | some y =>
      if c.framesLeft ≤ 1 then s.completeCut v y c z
      else s.setBody v (.cutting y { c with framesLeft := c.framesLeft - 1 } z)

/-- The frame work of one voice (R2, R3, R11). -/
def State.voiceFrame (s : State) (v : Fin 16) : State :=
  match (s.voice v).body with
  | .free => s.setContribution v (0, 0)
  | .held _ _ => s.setContribution v (0, 0)
  | .playing x => s.soundingFrame v x .playing false
  | .releasing x => s.soundingFrame v x .releasing true
  | .cutting x c z => s.cutFrame v x c z

/-- The coming frame work of a voice completes its cut (R11, R12). -/
def State.cutEndsNext (s : State) (v : Fin 16) : Bool :=
  match (s.voice v).body with
  | .cutting x c _ => match (s.clip x.clip).record with
    | none => false
    | some r => decide (c.framesLeft ≤ 1) || (x.advance r).isNone
  | _ => false

/-- The coming frame work of a sounding start is a move instant of its ramp (R28): the clip does not end first. -/
def State.startMovesNext (s : State) (x : Sounding) : Bool :=
  match (s.clip x.clip).record, x.ramp with
  | some r, some p => (x.advance r).isSome && p.movesNext
  | _, _ => false

/-- The coming frame work of a voice is a move instant of its ramp (R28). -/
def State.rampMovesNext (s : State) (v : Fin 16) : Bool :=
  match (s.voice v).body with
  | .playing x => s.startMovesNext x
  | .releasing x => s.startMovesNext x
  | _ => false

/-! ### Handles and operations (R14 to R19) -/

/-- What a handle is (R14). -/
inductive HandleKind where
  | stale
  | sounding
  | beingCut
  | awaiting
deriving DecidableEq, Repr

/-- The condition of a handle by the context of its voice (R14). -/
def State.handleKind (s : State) (h : Handle) : HandleKind :=
  let x := s.voice h.voice
  match x.body with
  | .free => .stale
  | .playing _ => if h.generation = x.generation then .sounding else .stale
  | .releasing _ => if h.generation = x.generation then .sounding else .stale
  | .held _ _ => if h.generation = x.generation then .sounding else .stale
  | .cutting _ c none => if h.generation = x.generation ∧ h.generation = c.generation then .beingCut else .stale
  | .cutting _ _ (some _) => if h.generation = x.generation then .awaiting else .stale

/-- RAMP on a handle (R15). -/
def State.opRamp (s : State) (h : Handle) (r : RampSpec) : Status × State :=
  match s.handleKind h with
  | .stale => (.stale, s)
  | .beingCut => (.notApplied, s)
  | .awaiting => (.notApplied, s)
  | .sounding =>
    match (s.voice h.voice).body with
    | .playing x => (.ok, s.setBody h.voice (.playing { x with ramp := some (r.set x.level) }))
    | .held x .playing => (.ok, s.setBody h.voice (.held { x with ramp := some (r.set x.level) } .playing))
    | _ => (.notApplied, s)

/-- A start with exit requested and its release ramp set (R16, R34). -/
def Sounding.released (x : Sounding) (k : Release) : Sounding :=
  { x with exit := true, ramp := some (k.ramp x.level) }

/-- RELEASE on a handle (R16, R19). -/
def State.opRelease (s : State) (h : Handle) : Status × State :=
  match s.handleKind h with
  | .stale => (.stale, s)
  | .beingCut => (.notApplied, s)
  | .awaiting => (.ok, s.cancelSuccessor h.voice .cancelled)
  | .sounding =>
    match (s.voice h.voice).body with
    | .playing x => match x.release with
      | none => (.ok, s.setBody h.voice (.playing { x with exit := true }))
      | some k => (.ok, s.setBody h.voice (.releasing (x.released k)))
    | .held x .playing => match x.release with
      | none => (.ok, s.setBody h.voice (.held { x with exit := true } .playing))
      | some k => (.ok, s.setBody h.voice (.held (x.released k) .releasing))
    | _ => (.ok, s)

/-- STOP on a handle (R17, R19). -/
def State.opStop (s : State) (h : Handle) : Status × State :=
  match s.handleKind h with
  | .stale => (.stale, s)
  | .beingCut => (.ok, s)
  | .awaiting => (.ok, s.cancelSuccessor h.voice .cancelled)
  | .sounding => (.ok, s.stopStart h.voice .stopped)

/-- HOLD on a handle (R18). -/
def State.opHold (s : State) (h : Handle) : Status × State :=
  match s.handleKind h with
  | .stale => (.stale, s)
  | .beingCut => (.wrongState, s)
  | .awaiting => (.wrongState, s)
  | .sounding =>
    match (s.voice h.voice).body with
    | .playing x => (.ok, s.setBody h.voice (.held x .playing))
    | .releasing x => (.ok, s.setBody h.voice (.held x .releasing))
    | _ => (.ok, s)

/-- CONTINUE on a handle (R18). -/
def State.opContinue (s : State) (h : Handle) : Status × State :=
  match s.handleKind h with
  | .stale => (.stale, s)
  | .beingCut => (.wrongState, s)
  | .awaiting => (.wrongState, s)
  | .sounding =>
    match (s.voice h.voice).body with
    | .held x .playing => (.ok, s.setBody h.voice (.playing x))
    | .held x .releasing => (.ok, s.setBody h.voice (.releasing x))
    | _ => (.wrongState, s)

end Sys2Proof.Machine
end

