-- ==== Sys2Proof/Machine/Alloc.lean ====
section
/-! DEFINITION. The voice allocator: a start order through its checks, the group rule, voice choice and binding
(chapter 3). -/

namespace Sys2Proof.Machine

/-- What ALC answers a requester (R41, R48, R49). `badReverse` is the refusal of R42 check 2. -/
inductive OrderAnswer where
  | sounding (h : Handle)
  | awaiting (h : Handle)
  | failed (status : Status)
  | badReverse
deriving DecidableEq, Repr

/-- The clip checks of R42: the record the start will play, or the answer of the first check that fails. -/
def State.clipChecks (s : State) (o : StartOrder) (owner : Owner) : Except OrderAnswer ClipRecord :=
  match (s.clip o.clip).record with
  | none => .error (.failed .notDefined)
  | some r =>
    if o.reverse && decide (r.loopMode ≠ .none) && decide (owner = .link) then .error .badReverse
    else if s.touchedSector r fun x => x.busy then .error (.failed .clipBusy)
    else if s.touchedSector r fun x => x.suspect then .error (.failed .suspect)
    else .ok r

/-- The group rule at one voice (R43). -/
def State.groupAt (g : Fin 8) (s : State) (v : Fin 16) : State :=
  match (s.voice v).body with
  | .playing x => if x.group = g then s.stopStart v .superseded else s
  | .releasing x => if x.group = g then s.stopStart v .superseded else s
  | .held x _ => if x.group = g then s.stopStart v .superseded else s
  | .cutting _ _ (some z) => if z.order.group = g then s.cancelSuccessor v .superseded else s
  | .cutting _ _ none => s
  | .free => s

/-- The group rule (R43): the voices in ascending number; group 0 is no group. -/
def State.groupRule (s : State) (g : Fin 8) : State :=
  if g = 0 then s else allVoices.foldl (State.groupAt g) s

/-- The voice is FREE. -/
def Voice.isFree (x : Voice) : Bool :=
  match x.body with
  | .free => true
  | _ => false

/-- The voice is CUTTING and has no successor (R44 case 2). -/
def Voice.takesSuccessor (x : Voice) : Bool :=
  match x.body with
  | .cutting _ _ none => true
  | _ => false

/-- The priority of a voice that can be stolen: one in PLAYING, RELEASING or HELD (R45). -/
def Voice.stealPriority (x : Voice) : Option (Fin 8) :=
  match x.body with
  | .playing y => some y.priority
  | .releasing y => some y.priority
  | .held y _ => some y.priority
  | _ => none

/-- The voice is RELEASING (R45 test 2). -/
def Voice.isReleasing (x : Voice) : Bool :=
  match x.body with
  | .releasing _ => true
  | _ => false

/-- The steal candidates, earliest in the age list first (R45). -/
def State.stealCandidates (s : State) (priority : Fin 8) : List (Fin 16) :=
  s.alc.age.filter fun v =>
    match (s.voice v).stealPriority with
    | none => false
    | some p => decide (p < priority)

/-- The candidates of the lowest priority (R45 test 1). -/
def State.lowestOf (s : State) (l : List (Fin 16)) : List (Fin 16) :=
  l.filter fun v => l.all fun w =>
    match (s.voice v).stealPriority, (s.voice w).stealPriority with
    | some p, some q => decide (p ≤ q)
    | _, _ => true

/-- The voice a steal takes (R45), none where there is no candidate. -/
def State.stealVictim (s : State) (priority : Fin 8) : Option (Fin 16) :=
  let low := s.lowestOf (s.stealCandidates priority)
  match low.filter fun v => (s.voice v).isReleasing with
  | v :: _ => some v
  | [] => low.head?

/-- An order is bound to a FREE voice (R48). -/
def State.bindStart (s : State) (v : Fin 16) (o : StartOrder) (owner : Owner) (r : ClipRecord) : OrderAnswer × State :=
  let g := (s.voice v).generation + 1
  let t := (s.takeClaim o.clip).setVoice v ⟨g, .playing (o.begin owner r)⟩
  (.sounding ⟨v, g⟩, t.setAge (t.alc.age ++ [v]))

/-- The context of a cutting voice that takes a successor (R49 steps 1 and 3). -/
def Voice.withSuccessor (x : Voice) (o : StartOrder) (owner : Owner) : Voice :=
  match x.body with
  | .cutting y c _ => ⟨x.generation + 1, .cutting y c (some ⟨o, x.generation + 1, owner⟩)⟩
  | _ => x

/-- The generation of the start being cut is still the voice's own: its handle is live (R14). -/
def Voice.cutIsLive (x : Voice) : Bool :=
  match x.body with
  | .cutting _ c none => decide (c.generation = x.generation)
  | _ => false

/-- An order is attached as the successor of a cutting voice that has none (R49). -/
def State.attachSuccessor (s : State) (v : Fin 16) (o : StartOrder) (owner : Owner) : OrderAnswer × State :=
  let x := s.voice v
  let s := if x.cutIsLive then s.signal ⟨v, x.generation⟩ else s
  let t := (s.takeClaim o.clip).setVoice v (x.withSuccessor o owner)
  (.awaiting ⟨v, x.generation + 1⟩, t.setAge (t.alc.age.erase v ++ [v]))

/-- A voice is stolen and takes the order (R46). -/
def State.steal (s : State) (v : Fin 16) (o : StartOrder) (owner : Owner) (r : ClipRecord) : OrderAnswer × State :=
  let t := (s.raise .steals).stopStart v .stolen
  if (t.voice v).isFree then t.bindStart v o owner r else t.attachSuccessor v o owner

/-- Voice choice and binding (R44 to R49), NO_VOICE where no voice can be had (R47). -/
def State.chooseVoice (s : State) (o : StartOrder) (owner : Owner) (r : ClipRecord) : OrderAnswer × State :=
  match allVoices.find? fun v => (s.voice v).isFree with
  | some v => s.bindStart v o owner r
  | none =>
    match allVoices.find? fun v => (s.voice v).takesSuccessor with
    | some v => s.attachSuccessor v o owner
    | none =>
      match s.stealVictim o.priority with
      | some v => s.steal v o owner r
      | none => (.failed .noVoice, s)

/-- ALC takes a start order whole, but for the count of a failure (R41). -/
def State.tryOrder (s : State) (o : StartOrder) (owner : Owner) : OrderAnswer × State :=
  match s.clipChecks o owner with
  | .error a => (a, s)
  | .ok r => (s.groupRule o.group).chooseVoice o owner r

/-- ALC takes an order that is no retry: a failure counts in START_FAILS (R41, R47). -/
def State.takeOrder (s : State) (o : StartOrder) (owner : Owner) : OrderAnswer × State :=
  match s.tryOrder o owner with
  | (.failed st, t) => (.failed st, t.raise .startFails)
  | a => a

end Sys2Proof.Machine
end

