-- ==== Sys2Proof/Machine/Lanes.lean ====
section
/-! DEFINITION. The cue lanes: fetching, taking and completing blocks, waits, notices, faults, starts, aborts and binding
starts (chapters 4 and 5). -/

namespace Sys2Proof.Machine

/-! ### Records a lane posts -/

/-- LANE_IDLE for a lane (R90, R177). -/
def State.postLaneIdle (s : State) (l : Fin 4) (reason : Byte) (slot : Option (Fin 256)) (fault : Byte) : State :=
  let o := (s.lane l).origin
  s.post .laneIdle l.val 0 reason (eventValue (slotByte slot) fault (originCode o) (originBinding o))

/-- CUE_DONE for a block (R59). -/
def State.postCueDone (s : State) (l : Fin 4) (slot : Fin 256) : State :=
  s.post .cueDone l.val 0 0 (eventValue (byte1 slot.val) 0 0 0)

/-- START_FAIL for a PLAY block (R62, R86). -/
def State.postStartFail (s : State) (l : Fin 4) (status : Status) (slot : Fin 256) : State :=
  s.post .startFail l.val 0 status.code (eventValue (byte1 slot.val) 0 0 0)

/-- MARK for a MARK block (R68). -/
def State.postMark (s : State) (l : Fin 4) (value : Half) (slot : Fin 256) : State :=
  s.post .mark l.val 0 0 (eventValue (byte1 (value.toNat / 256)) (byte1 value.toNat) (byte1 slot.val) 0)

/-! ### The lane context -/

/-- A lane that has entered IDLE (R75). A held notice is not touched. -/
def Lane.idled (x : Lane) : Lane :=
  { x with state := .idle, slot := none, wait := none, rep := none, fault := none, pendingStart := none,
           pauseRequested := false, budget := 0 }

/-- A lane that has entered WAITING (R82). -/
def Lane.waitingOn (x : Lane) (w : Wait) : Lane :=
  { x with state := .waiting, wait := some w, budget := 0 }

/-- A lane with a handle slot replaced. -/
def Lane.setHandle (x : Lane) (h : Fin 4) (v : Option Handle) : Lane :=
  { x with handles := x.handles.set h v }

/-- A lane that stands on a slot as CUE WRITE and CUE CLEAR protect it (R69, R71). -/
def Lane.protectsSlot (x : Lane) (slot : Fin 256) : Bool :=
  decide (x.slot = some slot) &&
    (match x.state with
     | .running => true
     | .waiting => true
     | .paused => true
     | .faulted => true
     | .idle => false
     | .starved => false)

/-- Some lane protects a slot (R69, R71). -/
def State.slotActive (s : State) (slot : Fin 256) : Bool :=
  allLanes.any fun l => (s.lane l).protectsSlot slot

/-- A lane faults at a slot (R88). -/
def State.faultLane (s : State) (l : Fin 4) (slot : Fin 256) (f : LaneFault) : State :=
  let x := s.lane l
  (s.setLane l { x with state := .faulted, slot := some slot, fault := some (f, slot), wait := none, rep := none,
                        pendingStart := none, pauseRequested := false }).postLaneIdle l laneIdleFault (some slot) f.code

/-- The LANE_IDLE notice with reason END or PAUSE owed for a block (R91). -/
def State.oweNotice (s : State) (l : Fin 4) (reason : NoticeReason) (slot : Fin 256) (quiet : Nat) : State :=
  if quiet = 0 then s.postLaneIdle l reason.code (some slot) 0
  else s.setLane l { s.lane l with notice := some ⟨reason, quiet * 8, slot⟩ }

/-- A held notice is posted and removed (R91, R92). -/
def State.postNotice (s : State) (l : Fin 4) : State :=
  match (s.lane l).notice with
  | none => s
  | some n => (s.postLaneIdle l n.reason.code (some n.slot) 0).setLane l { s.lane l with notice := none }

/-- Steps 1 to 4 of a start (R76); the fetch of the entry slot follows. -/
def State.prepareStart (s : State) (l : Fin 4) (clear : Bool) (o : Origin) : State :=
  let x := s.lane l
  s.setLane l { x with notice := none, fault := none, rep := none, wait := none, pendingStart := none,
                       pauseRequested := false, budget := 0, origin := some o
                       handles := if clear then Table.const 4 none else x.handles }

/-! ### Fetching and starting (R76, R78) -/

/-- A lane fetches an EMPTY slot (R78). -/
def Lane.starvedAt (x : Lane) (slot : Fin 256) : Lane :=
  { x with state := .starved, slot := some slot, budget := 0 }

/-- A lane fetches a slot that holds a block (R78). -/
def Lane.runningAt (x : Lane) (slot : Fin 256) : Lane :=
  { x with state := .running, slot := some slot }

/-- A lane fetches a slot: it starves at an EMPTY one, and is RUNNING at a block, which it takes next (R78). -/
def State.fetch (s : State) (l : Fin 4) (slot : Fin 256) : State :=
  match s.cues.get slot with
  | none => s.setLane l ((s.lane l).starvedAt slot)
  | some _ => s.setLane l ((s.lane l).runningAt slot)

/-- The start procedure (R76): its five steps, the fetch of the entry slot the last. -/
def State.beginRun (s : State) (l : Fin 4) (entry : Fin 256) (clear : Bool) (o : Origin) : State :=
  (s.prepareStart l clear o).fetch l entry

/-! ### Taking a block (R61 to R68, R79) -/

/-- What the taking of a block comes to (R79). -/
inductive Taken where
  /-- The block completes at once; a REPEAT names its next slot. -/
  | completes (next : Option (Fin 256))
  /-- The lane has left RUNNING: it waits or has faulted. -/
  | stands

/-- The fault a PLAY block's policy FAULT makes of a failure (R62). -/
def faultOf : Status → LaneFault
  | .notDefined => .clipNotDefined
  | .clipBusy => .clipBusy
  | .suspect => .clipSuspect
  | _ => .noVoice

/-- A retry of a lane that enters a START wait anew: the wait it was asked about is no longer the lane's (R85). -/
def Retry.overtaken (l : Fin 4) (r : Retry) : Retry := if r.lane = l then { r with standing := false } else r

/-- A lane enters a START wait with a copy of the order (R62, R85). -/
def State.enterStartWait (s : State) (l : Fin 4) (o : StartOrder) : State :=
  (s.setLane l ((s.lane l).waitingOn (.start o))).setRetry (s.alc.retry.map (Retry.overtaken l))

/-- A PLAY block whose order failed (R62). -/
def State.playFailed (s : State) (l : Fin 4) (slot : Fin 256) (p : PlayOperands) (status : Status) : Taken × State :=
  let s := s.setLane l ((s.lane l).setHandle p.h none)
  match p.policy with
  | .skip => (.completes none, s.postStartFail l status slot)
  | .retry =>
    if status = .noVoice then (.stands, s.enterStartWait l p.order)
    else (.completes none, s.postStartFail l status slot)
  | .fault => (.stands, s.faultLane l slot (faultOf status))

/-- A PLAY block (R61, R62). A lane's order is never answered with the refusal of R42 check 2. -/
def State.takePlay (s : State) (l : Fin 4) (slot : Fin 256) (p : PlayOperands) : Taken × State :=
  match s.takeOrder p.order (.lane l) with
  | (.sounding h, s) => (.completes none, s.setLane l ((s.lane l).setHandle p.h (some h)))
  | (.awaiting h, s) => (.completes none, s.setLane l ((s.lane l).setHandle p.h (some h)))
  | (.failed st, s) => s.playFailed l slot p st
  | (.badReverse, s) => (.completes none, s)

/-- A RAMP, RELEASE or STOP block on a handle slot: an empty slot has no effect, and any answer completes it (R63). -/
def State.onHandle (s : State) (l : Fin 4) (h : Fin 4) (f : State → Handle → Status × State) : State :=
  match (s.lane l).handles.get h with
  | none => s
  | some x => (f s x).2

/-- A WAIT_VOICE block (R65). -/
def State.takeWaitVoice (s : State) (l : Fin 4) (h : Fin 4) : Taken × State :=
  match (s.lane l).handles.get h with
  | none => (.completes none, s)
  | some x =>
    if s.handleKind x = .stale then (.completes none, s)
    else (.stands, s.setLane l ((s.lane l).waitingOn (.voice x)))

/-- A REPEAT block (R67). -/
def State.takeRepeat (s : State) (l : Fin 4) (slot target link : Fin 256) (count : Nat) : Taken × State :=
  let x := s.lane l
  match x.rep with
  | none => (.completes (some target), s.setLane l { x with rep := some ⟨slot, count⟩ })
  | some r =>
    if r.owner ≠ slot then (.stands, s.faultLane l slot .nestedRepeat)
    else if 1 < r.remaining then
      (.completes (some target), s.setLane l { x with rep := some ⟨slot, r.remaining - 1⟩ })
    else (.completes (some link), s.setLane l { x with rep := none })

/-- A RUNNING lane takes the op of the block at its slot (R79). -/
def State.takeOp (s : State) (l : Fin 4) (slot : Fin 256) (b : CueBlock) : Taken × State :=
  match b.op with
  | .play p => s.takePlay l slot p
  | .ramp h r => (.completes none, s.onHandle l h fun s x => s.opRamp x r)
  | .release h => (.completes none, s.onHandle l h fun s x => s.opRelease x)
  | .stop h => (.completes none, s.onHandle l h fun s x => s.opStop x)
  | .waitTime t => (.stands, s.setLane l ((s.lane l).waitingOn (.time t)))
  | .waitVoice h => s.takeWaitVoice l h
  | .waitCode c => (.stands, s.setLane l ((s.lane l).waitingOn (.code c)))
  | .repeatTo target count => s.takeRepeat l slot target b.link count
  | .mark v => (.completes none, s.postMark l v slot)

/-! ### Completing a block (R80) -/

/-- A completion takes the lane into PAUSED (R86). -/
def State.pauseLane (s : State) (l : Fin 4) (slot : Fin 256) (quiet : Nat) : State :=
  (s.setLane l { s.lane l with state := .paused, slot := some slot, wait := none, pauseRequested := false, budget := 0 }).oweNotice
    l .pause slot quiet

/-- The lane enters IDLE through a LAST block, owes END, and then takes a pending start (R80 step 5, R87 step 3, R94). -/
def State.endRun (s : State) (l : Fin 4) (slot : Fin 256) (quiet : Nat) : State :=
  let kept := (s.lane l).pendingStart
  let s := (s.setLane l (s.lane l).idled).oweNotice l .runEnd slot quiet
  match kept with
  | none => s
  | some p => s.beginRun l p.entry p.clear (.binding p.binding)

/-- Steps 2 to 6 of a completion (R80). -/
def State.finishBlock (s : State) (l : Fin 4) (slot : Fin 256) (b : CueBlock) (next : Option (Fin 256)) : State :=
  let s := if b.note then s.postCueDone l slot else s
  match next with
  | some n => s.fetch l n
  | none =>
    if (s.lane l).pauseRequested || b.pause then s.pauseLane l slot b.quiet
    else if b.last then s.endRun l slot b.quiet
    else s.fetch l b.link

/-- A block that completed at once: the run budget first (R80 step 1, R81). -/
def State.completeAtOnce (s : State) (l : Fin 4) (slot : Fin 256) (b : CueBlock) (next : Option (Fin 256)) : State :=
  let x := s.lane l
  let s := s.setLane l { x with budget := x.budget + 1 }
  if Config.runBudget ≤ x.budget + 1 then s.faultLane l slot .runaway else s.finishBlock l slot b next

/-- A RUNNING lane takes the block at its slot and, if it completes at once, completes it: one step of LNC (R79, R80). -/
def State.takeBlock (s : State) (l : Fin 4) (slot : Fin 256) (b : CueBlock) : State :=
  match s.takeOp l slot b with
  | (.completes next, s) => s.completeAtOnce l slot b next
  | (.stands, s) => s

/-! ### Running on (R79, log 6) -/

/-- The block at a lane's current slot. -/
def State.currentBlock (s : State) (l : Fin 4) : Option (Fin 256 × CueBlock) :=
  match (s.lane l).slot with
  | none => none
  | some slot => (s.cues.get slot).map fun b => (slot, b)

/-- The block a RUNNING lane takes next. -/
def State.runningBlock (s : State) (l : Fin 4) : Option (Fin 256 × CueBlock) :=
  if (s.lane l).state = .running then s.currentBlock l else none

/-- A lane takes its next block; a lane that is not RUNNING takes none. -/
def State.takeNext (s : State) (l : Fin 4) : State :=
  match s.runningBlock l with
  | none => s
  | some (slot, b) => s.takeBlock l slot b

/-- More blocks than a lane can take before it stands still: 64 of a run and 64 of the queued run behind it (R81, R94). -/
def laneFuel : Nat := 200

/-- A lane goes on from block to block until it stands; before each block another command may be taken, on the lane as the
block before left it (R79). -/
def State.runOn : Nat → State → Fin 4 → State
  | 0, s, _ => s
  | fuel + 1, s, l =>
    if (s.runningBlock l).isNone then s
    else if s.opening.1 then s.opening.2
    else State.runOn fuel (s.opening.2.takeNext l) l

/-- A lane goes on from block to block until it stands, with nothing between them. -/
def State.settle : Nat → State → Fin 4 → State
  | 0, s, _ => s
  | fuel + 1, s, l => if (s.runningBlock l).isNone then s else State.settle fuel (s.takeNext l) l

/-- A RUNNING lane takes the block it has fetched and goes on. -/
def State.runLane (s : State) (l : Fin 4) : State := State.runOn laneFuel (s.takeNext l) l

/-- A lane is started at an entry slot (R76), takes the block there and goes on. -/
def State.startLane (s : State) (l : Fin 4) (entry : Fin 256) (clear : Bool) (o : Origin) : State :=
  (s.beginRun l entry clear o).runLane l

/-! ### Waits (R82 to R86) -/

/-- A wait's event has arrived: the wait is removed and the block completes (R82). A waiting lane's slot holds its block
(R75); were it EMPTY the lane would stay. -/
def State.endWait (s : State) (l : Fin 4) : State :=
  match s.currentBlock l with
  | none => s
  | some (slot, b) => (s.setLane l { s.lane l with state := .running, wait := none }).finishBlock l slot b none

/-- A wait ends, and the lane goes on (R82). -/
def State.wakeLane (s : State) (l : Fin 4) : State := State.runOn laneFuel (s.endWait l) l

/-- The lanes that one event wakes, in turn: each completes its block and runs on until it stands before the next (R83). -/
def State.wakeInTurn : State → List (Fin 4) → State
  | s, [] => s
  | s, [l] => s.wakeLane l
  | s, l :: rest => State.wakeInTurn (State.settle laneFuel (s.endWait l) l) rest

/-- A lane takes a millisecond tick: its TIME wait (R83) or its held notice (R91). A lane whose wait ends completes its block. -/
def State.tickLane (s : State) (l : Fin 4) : State :=
  let x := s.lane l
  match x.wait with
  | some (.time t) =>
    if t ≤ 1 then s.endWait l else s.setLane l { x with wait := some (.time (t - 1)) }
  | _ =>
    match x.notice with
    | none => s
    | some n =>
      if n.msLeft ≤ 1 then s.postNotice l
      else s.setLane l { x with notice := some { n with msLeft := n.msLeft - 1 } }

/-- The lane's TIME wait ends at its next tick. -/
def Lane.waitEndsNext (x : Lane) : Bool :=
  match x.wait with
  | some (.time t) => decide (t ≤ 1)
  | _ => false

/-- The lane's held notice expires at its next tick. -/
def Lane.noticeEndsNext (x : Lane) : Bool :=
  match x.wait, x.notice with
  | some (.time _), _ => false
  | _, some n => decide (n.msLeft ≤ 1)
  | _, none => false

/-- A tick changes the lane: it is in a TIME wait or holds a notice (R83, R91). -/
def Lane.takesTicks (x : Lane) : Bool :=
  match x.wait, x.notice with
  | some (.time _), _ => true
  | _, some _ => true
  | _, none => false

/-- The lanes that a tick changes, in turn: a lane whose wait ends runs on, and until it stands before the next is taken (R83). -/
def State.tickInTurn : State → List (Fin 4) → State
  | s, [] => s
  | s, [l] => if (s.lane l).waitEndsNext then State.runOn laneFuel (s.tickLane l) l else s.tickLane l
  | s, l :: rest =>
    State.tickInTurn (if (s.lane l).waitEndsNext then State.settle laneFuel (s.tickLane l) l else s.tickLane l) rest

/-- The lane waits on a code (R83). -/
def Lane.waitsOnCode (x : Lane) (c : Code) : Bool := decide (x.wait = some (.code c))

/-- The lane waits on a handle (R84). -/
def Lane.waitsOnHandle (x : Lane) (h : Handle) : Bool := decide (x.wait = some (.voice h))

/-- LNC takes a reported code: the lanes that wait on it complete their blocks, L0 first; the count of lanes woken is
answered (R83, R105). -/
def State.reportCode (s : State) (c : Code) : Nat × State :=
  let woken := allLanes.filter fun l => (s.lane l).waitsOnCode c
  (woken.length, s.wakeInTurn woken)

/-- LNC takes a signal: the lanes that wait on the handle complete their blocks, L0 first (R84). -/
def State.takeSignal (s : State) (h : Handle) : State :=
  s.wakeInTurn (allLanes.filter fun l => (s.lane l).waitsOnHandle h)

/-- The handle slot of the PLAY block at a lane's current slot (R85). -/
def State.playSlot (s : State) (l : Fin 4) : Option (Fin 4) :=
  match s.currentBlock l with
  | some (_, ⟨.play p, _, _, _, _, _⟩) => some p.h
  | _ => none

/-- A retry has succeeded: the handle is stored and the PLAY block completes (R85). -/
def State.retrySucceeded (s : State) (l : Fin 4) (h : Handle) : State :=
  let s := match s.playSlot l with
    | none => s
    | some i => s.setLane l ((s.lane l).setHandle i (some h))
  s.wakeLane l

/-- The order of a lane's START wait (R85). -/
def Lane.startWait (x : Lane) : Option StartOrder :=
  match x.state, x.wait with
  | .waiting, some (.start o) => some o
  | _, _ => none

/-- The lane waits on the START wait that a retry's question found (R85). -/
def State.stillWaits (s : State) (r : Retry) : Bool := r.standing && (s.lane r.lane).startWait.isSome

/-- ALC takes the order of a retry and answers LNC, with no command between the two (log 6; R54, R85): a success reaches the
lane that still waits, else the start plays on and its handle is not stored; a failure is not counted and posts nothing. -/
def State.answerRetry (s : State) (r : Retry) : State :=
  match (s.setRetry none).tryOrder r.order (.lane r.lane) with
  | (.sounding h, t) => if s.stillWaits r then t.retrySucceeded r.lane h else t
  | (.awaiting h, t) => if s.stillWaits r then t.retrySucceeded r.lane h else t
  | (.failed _, t) => t
  | (.badReverse, t) => t

/-- ALC has asked about a lane and found its START wait: the answer follows at once, or another command is taken first (R85,
log 6). That such a command falls before ALC takes the order, and not between the order and the answer, is the model's choice
(log 6). -/
def State.askRetry (s : State) (r : Retry) : State :=
  if s.opening.1 then s.opening.2.setRetry (some r) else s.opening.2.answerRetry r

/-- A lane's turn in a retry round: a lane in no START wait is passed over (R53 steps 2 and 3). -/
def State.retryAt (s : State) (l : Fin 4) : State :=
  match (s.lane l).startWait with
  | none => s
  | some o => s.askRetry ⟨l, o, true⟩

/-- The lanes from number `first` on take their turns in a retry round, up to a retry that stands unanswered (R53). -/
def State.retryFrom (s : State) (first : Nat) : State :=
  allLanes.foldl (fun s l => if first ≤ l.val ∧ s.alc.retry.isNone then s.retryAt l else s) s

/-- A retry round (R53): one that stands between a question and its answer goes on; else, where offer due is set, the flag is
cleared and the lanes take their turns. -/
def State.retryRound (s : State) : State :=
  match s.alc.retry with
  | some r => (s.answerRetry r).retryFrom (r.lane.val + 1)
  | none => if s.alc.offerDue then s.clearOffer.retryFrom 0 else s

/-- With no command waiting, what stands between two steps of ALC or LNC goes on: a retry round first, else the lowest RUNNING
lane (log 6). -/
def State.goOn (s : State) : State :=
  if s.alc.retry.isSome then s.retryRound
  else match allLanes.find? fun l => decide ((s.lane l).state = .running) with
    | none => s
    | some l => s.runLane l

/-! ### Pause, resume, abort, binding starts (R86, R87, R89, R93) -/

/-- A START wait is given up by a pause (R86): START_FAIL, then the PLAY block completes with the pause standing. -/
def State.giveUpStart (s : State) (l : Fin 4) : State :=
  match (s.lane l).slot with
  | none => s
  | some slot => (s.postStartFail l .noVoice slot).wakeLane l

/-- LANE PAUSE on a lane (R86). -/
def State.pauseRequest (s : State) (l : Fin 4) : Status × State :=
  let x := s.lane l
  let s' := s.setLane l { x with pauseRequested := true }
  match x.state with
  | .running => (.ok, s')
  | .starved => (.ok, s')
  | .waiting => match x.wait with
    | some (.start _) => (.ok, s'.giveUpStart l)
    | _ => (.ok, s')
  | .paused => (.ok, s)
  | .idle => (.wrongState, s)
  | .faulted => (.wrongState, s)

/-- LANE RESUME on a lane (R87). A paused lane's slot holds its block (R75). -/
def State.resumeLane (s : State) (l : Fin 4) : Status × State :=
  match (s.lane l).state with
  | .paused =>
    let s := s.setLane l { s.lane l with notice := none, budget := 0 }
    match s.currentBlock l with
    | none => (.ok, s)
    | some (slot, b) => (.ok, (if b.last then s.endRun l slot 0 else s.fetch l b.link).runLane l)
  | _ => (.wrongState, s)

/-- Step 3 of an abort with CUT: STOP on each handle slot in order (R89). -/
def State.cutHandles (s : State) (l : Fin 4) : State :=
  [(0 : Fin 4), 1, 2, 3].foldl (fun s h => s.onHandle l h fun s x => s.opStop x) s

/-- A lane is aborted (R89); `post` is no for a RESTART, which owes no notice (R93). -/
def State.abortLane (s : State) (l : Fin 4) (cut post : Bool) : State :=
  let x := s.lane l
  let due := decide (x.state ≠ .idle) || x.notice.isSome
  let slot := if x.state = .idle then x.notice.map fun n => n.slot else x.slot
  let s := s.setLane l { x.idled with notice := none }
  let s := if cut then s.cutHandles l else s
  if due && post then s.postLaneIdle l laneIdleAbort slot 0 else s

/-- LNC's answer to a binding start (R93). -/
inductive BindingAnswer where
  | started
  | restarted
  | queued
  | refused
deriving DecidableEq, Repr

/-- A binding start on its lane (R93). -/
def State.bindingStart (s : State) (i : Fin 32) (b : Binding) : BindingAnswer × State :=
  let l := b.lane
  let x := s.lane l
  if x.state = .idle ∨ x.state = .faulted then (.started, s.startLane l b.entry b.clear (.binding i))
  else match b.policy with
    | .ignore => (.refused, s)
    | .restart => (.restarted, (s.abortLane l true false).startLane l b.entry b.clear (.binding i))
    | .queue =>
      if x.pendingStart.isSome then (.refused, s)
      else (.queued, s.setLane l { x with pendingStart := some ⟨i, b.entry, b.clear⟩ })

/-- A filled slot wakes the lanes that starve on it, L0 first (R70, log 18). -/
def State.wakeStarved (s : State) (slot : Fin 256) : State :=
  allLanes.foldl (fun s l =>
    if (s.lane l).state = .starved ∧ (s.lane l).slot = some slot then (s.fetch l slot).runLane l else s) s

end Sys2Proof.Machine
end

