-- ==== Sys2Proof/Machine/Crc.lean ====
section
/-! DEFINITION. The CRC-16 of both serial lines and of the setup area (R163). -/

namespace Sys2Proof.Machine

/-- One shift of the register (R163 step 2). -/
def crcShift (r : Half) : Half :=
  if r.msb then (r <<< 1) ^^^ 0x1021 else r <<< 1

/-- The register after one byte (R163 step 2). -/
def crcByte (r : Half) (b : Byte) : Half :=
  let r := r ^^^ (b.setWidth 16 <<< 8)
  crcShift (crcShift (crcShift (crcShift (crcShift (crcShift (crcShift (crcShift r)))))))

/-- The CRC-16 of some bytes (R163). -/
def crc16 (l : List Byte) : Half := l.foldl crcByte 0xFFFF

end Sys2Proof.Machine
end

