-- ==== Sys2Proof/Machine/Link.lean ====
section
/-! DEFINITION. Taking a request and owing its reply (sections 10.4 and 10.5). -/

namespace Sys2Proof.Machine

/-- What the owner of a request, or LNK for it, answers: the status and the reply's data after it (R165, R166). -/
structure Answer where
  status : Status
  data : List Byte
deriving DecidableEq, Repr

/-- OK with no data. -/
def Answer.ok : Answer := ⟨.ok, []⟩

/-- A status with no data (R166). -/
def Answer.only (st : Status) : Answer := ⟨st, []⟩

/-- BAD_FIELD with the index of the field (R166). -/
def Answer.badField (i : Nat) : Answer := ⟨.badField, [byte1 i]⟩

/-- A refused request leaves the part as it was (R166). -/
def refuse (s : State) (st : Status) : Answer × State := (Answer.only st, s)

/-- A request refused for a field (R166). -/
def badField (s : State) (i : Nat) : Answer × State := (Answer.badField i, s)

/-- The type byte of a reply (R165). -/
def replyType (type : Byte) : Byte := if type.toNat < 0x80 then type + 0x80 else 0xFF

/-- LNK sends the reply (R165). -/
def State.sendReply (s : State) (tag type : Byte) (a : Answer) : State :=
  { s with lnk := { s.lnk with reply := some ⟨tag, replyType type, a.status, a.data⟩ } }

/-- From here on a reply is owed (R164 case 3). -/
def State.oweReply (s : State) : State :=
  { s with lnk := { s.lnk with replyOwed := true } }

/-- A frame is taken as a request: a reply is owed, the owner takes the request, and the reply is sent (R164 to R166). -/
def State.takeRequest (s : State) (tag type : Byte) (owner : State → Answer × State) : State :=
  (owner s.oweReply).2.sendReply tag type (owner s.oweReply).1

/-- A host request as a command (log 1): the frame that carries it completes with a good CRC. With the receiver OFF its
bytes are not received (R161). While a reply is owed the frame is late (R164 case 1). -/
def State.request (s : State) (tag type : Byte) (owner : State → Answer × State) : State :=
  if s.lnk.rx = .off then s
  else if s.lnk.replyOwed then s.raise .linkLate
  else s.takeRequest tag type owner

/-- The payload of a reply: the status, then the data (R165). -/
def Reply.payload (r : Reply) : List Byte := r.status.code :: r.data

/-- The length, tag, type and payload bytes of a frame (R173). -/
def frameBody (tag type : Byte) (payload : List Byte) : List Byte :=
  be16 (payload.length + 2) ++ [tag, type] ++ payload

/-- A frame of the host line (R173). -/
def frameBytes (tag type : Byte) (payload : List Byte) : List Byte :=
  0xB4 :: frameBody tag type payload ++ be16 (crc16 (frameBody tag type payload)).toNat

/-- The bytes a reply sends on HTX (R165). -/
def Reply.bytes (r : Reply) : List Byte := frameBytes r.tag r.type r.payload

end Sys2Proof.Machine
end

