-- ==== Sys2Proof/Machine/Cues.lean ====
section
/-! DEFINITION. Cue memory: CUE WRITE, CUE CLEAR and CUE READ (chapter 4). -/

namespace Sys2Proof.Machine

/-- CUE WRITE at CUM (R69, R70). -/
def State.writeCue (s : State) (slot : Fin 256) (b : CueBlock) : Answer × State :=
  if s.commitInFlight then refuse s .busy
  else if s.slotActive slot then refuse s .slotActive
  else (Answer.ok, (s.setCue slot (some b)).wakeStarved slot)

/-- CUE WRITE (R69): the payload is the slot and a block of 16 bytes, so block offset i has field index i + 1 (R176). -/
def doCueWrite (slot : Byte) (block : List Byte) (s : State) : Answer × State :=
  if block.length ≠ 16 then refuse s .badLength
  else match cueBlockOf block with
    | .error i => badField s (i + 1)
    | .ok b => s.writeCue slot.toFin b

/-- A slot number lies in a range. -/
def inRange (first last : Byte) (i : Nat) : Bool := decide (first.toNat ≤ i) && decide (i ≤ last.toNat)

/-- Some lane protects a slot of a range (R71). -/
def State.rangeActive (s : State) (first last : Byte) : Bool :=
  allLanes.any fun l => match (s.lane l).slot with
    | none => false
    | some slot => inRange first last slot.val && (s.lane l).protectsSlot slot

/-- Every slot of a range made EMPTY (R71). -/
def State.clearCues (s : State) (first last : Byte) : State :=
  { s with cues := s.cues.mapIdx fun i x => if inRange first last i then none else x }

/-- CUE CLEAR (R71). -/
def doCueClear (first last : Byte) (s : State) : Answer × State :=
  if last.toNat < first.toNat then badField s 1
  else if s.commitInFlight then refuse s .busy
  else if s.rangeActive first last then refuse s .slotActive
  else (Answer.ok, s.clearCues first last)

/-- CUE READ (R72). -/
def doCueRead (first count : Byte) (s : State) : Answer × State :=
  if count.toNat = 0 ∨ 16 < count.toNat ∨ 256 < first.toNat + count.toNat then badField s 1
  else (⟨.ok, ((s.cues.cells.drop first.toNat).take count.toNat).flatMap cueBytes⟩, s)

/-- CUE_WRITE (R69, R70). -/
def execCueWrite (tag slot : Byte) (block : List Byte) (s : State) : Result :=
  .next (s.request tag 0x20 (doCueWrite slot block))

/-- CUE_CLEAR (R71). -/
def execCueClear (tag first last : Byte) (s : State) : Result := .next (s.request tag 0x21 (doCueClear first last))

/-- CUE_READ (R72). -/
def execCueRead (tag first count : Byte) (s : State) : Result := .next (s.request tag 0x22 (doCueRead first count))

end Sys2Proof.Machine
end

