-- ==== Sys2Proof/Machine/Output.lean ====
section
/-! DEFINITION. Mixing and output: master levels, limiting, mute and PWM duty (chapter 8). -/

namespace Sys2Proof.Machine

/-- The bus sums of the sixteen contributions (R139). -/
def Out.bus (o : Out) : Int × Int :=
  o.contributions.cells.foldl (fun b c => (b.1 + c.1, b.2 + c.2)) (0, 0)

/-- The two output values of a frame before limiting (R140). -/
def Out.values (o : Out) (bus : Int × Int) : Int × Int :=
  let l := scaleBy bus.1 o.leftMaster
  let r := scaleBy bus.2 o.rightMaster
  match o.mode with
  | .stereo => (l, r)
  | .mono => (Int.tdiv (l + r) 2, Int.tdiv (l + r) 2)

/-- An output value limited (R141). -/
def limit (x : Int) : Int := max (-32767) (min 32767 x)

/-- An output value lies outside the range of the output stage (R141). -/
def outside (x : Int) : Bool := decide (x < -32767) || decide (32767 < x)

/-- The mute step of a frame (R142). At a position that R142 gives the state no step for, reached by R143 with no frame between
two requests, a MUTING at 0 becomes MUTED at 0 and an UNMUTING at 256 becomes UNMUTED at 256 (log 25). -/
def muteStep (state : MuteState) (pos : Nat) : MuteState × Nat :=
  match state with
  | .unmuted => (.unmuted, pos)
  | .muted => (.muted, pos)
  | .muting => if pos ≤ 1 then (.muted, 0) else (.muting, pos - 1)
  | .unmuting => if Config.fullMute ≤ pos + 1 then (.unmuted, Config.fullMute) else (.unmuting, pos + 1)

/-- The coming mute step ends a mute ramp (R142). -/
def Out.muteEndsNext (o : Out) : Bool :=
  match o.mute with
  | .muting => decide (o.mutePos ≤ 1)
  | .unmuting => decide (Config.fullMute ≤ o.mutePos + 1)
  | .unmuted => false
  | .muted => false

/-- OUT makes the mute step (R142); from the step that brings MUTED on the pins are blank (R146). -/
def Out.stepMute (o : Out) : Out :=
  let m := muteStep o.mute o.mutePos
  { o with mute := m.1, mutePos := m.2, shown := { o.shown with blank := o.shown.blank || decide (m.1 = .muted) } }

/-- A value after the mute gain (R142). -/
def muted (x : Int) (pos : Nat) : Int := Int.tdiv (x * (pos : Int)) 256

/-- The duty of a value (R144). -/
def duty (x : Int) : Nat := (128 + Int.fdiv x 256).toNat

/-- What a frame forms from the bus sums, by OUT's settings and its mute state after the step (R140 to R146). The pins are blank
in MUTED; at a position of 0 in UNMUTING, the request taken after this frame's step (log 26), they stay so: blanking ends with
the frame whose position is 1. -/
def Out.formed (o : Out) : FrameOut :=
  let bus := o.bus
  let v := o.values bus
  let l := muted (limit v.1) o.mutePos
  let r := muted (limit v.2) o.mutePos
  { busLeft := bus.1, busRight := bus.2, left := l, right := r, dutyLeft := duty l, dutyRight := duty r
    zone := o.deadZone, blank := decide (o.mute = .muted) || decide (o.mutePos = 0) }

/-- A frame in which a side lies outside the range before limiting counts OUTPUT_CLIPS once (R141). -/
def Out.clips (o : Out) : Bool := outside (o.values o.bus).1 || outside (o.values o.bus).2

/-- OUT's work of a frame: the mute step unless it has been made, the mix, the pins and the tally (R139 to R146). -/
def State.mixFrame (s : State) : State :=
  let o := if s.progress.mute then s.out else s.out.stepMute
  let t := { s with out := { o with shown := o.formed } }
  if o.clips then t.raise .outputClips else t

/-- A mute request (R143). -/
def muteRequest (muted : Bool) (state : MuteState) : MuteState :=
  if muted then
    match state with
    | .unmuted => .muting
    | .muting => .muting
    | .muted => .muted
    | .unmuting => .muting
  else
    match state with
    | .unmuted => .unmuted
    | .muting => .unmuting
    | .muted => .unmuting
    | .unmuting => .unmuting

/-- OUT takes its five settings as one step (R147). -/
def Out.take (o : Out) (x : OutputSettings) : Out :=
  { o with mode := x.mode, leftMaster := x.left, rightMaster := x.right, deadZone := x.deadZone
           mute := muteRequest x.muted o.mute }

/-- The settings as OUTPUT SET would carry them, with the mute setting (R143, R180). -/
def Out.settingsBytes (o : Out) : List Byte :=
  o.mode.code :: be16 o.leftMaster ++ be16 o.rightMaster ++ [boolByte o.mute.setting, byte1 o.deadZone]

end Sys2Proof.Machine
end

