-- ==== Sys2Proof/Machine/Triggers.lean ====
section
/-! DEFINITION. The trigger receiver, the filter, the routing of codes and the bindings (chapter 6). -/

namespace Sys2Proof.Machine

/-! ### The filter (R103, R104) -/

/-- The filter position of a code from its CRC: the top six bits (R103). -/
def filterPosition (crc : Half) : Fin 64 := (crc.extractLsb' 10 6).toFin

/-- The CRC of a code's four bytes (R100). -/
def codeCrc (c : Code) : Half := crc16 (be32 c.toNat)

/-- The filter table that holds the marks of a list (R103, R104). -/
def filterMarks (l : List Code) : Table Bool 64 :=
  l.foldl (fun t c => t.set (filterPosition (codeCrc c)) true) (Table.const 64 false)

/-- How many positions are marked (R104). -/
def markedCount (t : Table Bool 64) : Nat := t.cells.countP fun b => b

/-- TRG with a new filter list and the table rebuilt from it (R104). -/
def Trg.setFilter (t : Trg) (l : List Code) : Trg :=
  { t with filterList := l, filterTable := filterMarks l }

/-- A received code passes the filter, by its received CRC (R103). -/
def Trg.passes (t : Trg) (crc : Half) : Bool :=
  t.filterList.isEmpty || t.filterTable.get (filterPosition crc)

/-! ### Routing (R105, R106, R108, R110) -/

/-- A TRIGGER record (R106). -/
def State.postTrigger (s : State) (reason : Byte) (c : Code) : State :=
  s.post .trigger 0 0 reason c

/-- A binding that matches a routed code acts (R108). -/
def State.bindingActs (s : State) (i : Fin 32) : State :=
  let b := s.binding i
  if 0 < b.holdoffLeft then s.raise .trigRefused
  else
    match (s.setBinding i { b with holdoffLeft := b.holdoff * 10 }).bindingStart i b with
    | (.refused, t) => t.raise .trigRefused
    | (_, t) => t

/-- A binding matches a code (R105). -/
def Binding.matches (b : Binding) (c : Code) : Bool := b.enabled && decide (b.code = c)

/-- Step 3 of the routing: the bindings in ascending number; whether any matched is answered (R105, R110). -/
def State.fireBindings (s : State) (c : Code) : Bool × State :=
  allBindings.foldl (fun (m, s) i => if (s.binding i).matches c then (true, s.bindingActs i) else (m, s)) (false, s)

/-- The routing of a code that has passed the filter (R105). -/
def State.routeCode (s : State) (c : Code) : State :=
  let s := if s.trg.report = .all then s.postTrigger 0 c else s
  let (woken, s) := s.reportCode c
  let (matched, s) := s.fireBindings c
  if woken = 0 ∧ matched = false then
    let s := s.raise .trigUnbound
    if s.trg.report = .unbound then s.postTrigger 1 c else s
  else s

/-! ### The receiver (R99 to R102) -/

/-- The receiver hunts; no bytes are held (R100). What it notes of a byte in reception is not touched. -/
def Trg.hunt (t : Trg) : Trg := { t with rx := .hunting, bytes := [], gap := 0 }

/-- The receiver collects, with these bytes held and the gap count loaded (R100, R101). -/
def Trg.collect (t : Trg) (bytes : List Byte) : Trg :=
  { t with rx := .collecting, bytes, gap := Config.trigGap }

/-- A trigger frame is complete: its four code bytes and two CRC bytes are checked, and a received code goes to the filter
(R102, R103). -/
def State.trigFrame (s : State) (bytes : List Byte) : State :=
  let code := bytes.take 4
  let crc := BitVec.ofNat 16 (beNat (bytes.drop 4))
  if crc16 code ≠ crc then s.raise .trigCrc
  else if s.trg.passes crc then s.routeCode (BitVec.ofNat 32 (beNat code)) else s

/-- The receiver takes a byte on TRX (R100); `good` is a high stop bit. -/
def State.trigTake (s : State) (b : Byte) (good : Bool) : State :=
  match s.trg.rx with
  | .off => s
  | .hunting => if good && decide (b = 0xC3) then { s with trg := s.trg.collect [] } else s
  | .collecting =>
    if good then
      let held := s.trg.bytes ++ [b]
      if held.length < 6 then { s with trg := s.trg.collect held }
      else ({ s with trg := s.trg.hunt }).trigFrame held
    else ({ s with trg := s.trg.hunt }).raise .trigFraming

/-- TRG notes what is in reception on TRX (R101, R114); that a receiver that is OFF notes nothing is the model's choice (log 20). -/
def State.noteTrg (s : State) (r : Reception) : State :=
  if s.trg.rx = .off then s else { s with trg := { s.trg with reception := r } }

/-- The end of a byte on TRX: the byte is taken (R100), unless it was in reception when the receiver restarted at a new rate
(R114). -/
def State.trigByte (s : State) (b : Byte) (good : Bool) : State :=
  if s.trg.reception = .dropped then s.noteTrg .idle else (s.noteTrg .idle).trigTake b good

/-- The receiver takes what the line brings (R100, R101); a start bit has no stop bit. -/
def State.trigLine (s : State) (good : Bool) : LineEvent → State
  | .startBit => s.noteTrg .begun
  | .byte b => s.trigByte b good

/-- An output frame lowers the gap count: in COLLECTING, while no start bit has begun (R101). -/
def Trg.gapCounts (t : Trg) : Bool := decide (t.rx = .collecting) && decide (t.reception = .idle)

/-- The gap count reaches 0 with the coming output frame (R101). -/
def Trg.gapEndsNext (t : Trg) : Bool := t.gapCounts && decide (t.gap ≤ 1)

/-- TRG takes an output frame for its gap count (R101). -/
def State.trigGapFrame (s : State) : State :=
  if s.trg.gapCounts then
    if s.trg.gap ≤ 1 then ({ s with trg := s.trg.hunt }).raise .trigFraming
    else { s with trg := { s.trg with gap := s.trg.gap - 1 } }
  else s

/-- TRG takes a millisecond tick: the holdoff left of every binding (R109). -/
def State.tickHoldoffs (s : State) : State :=
  { s with trg := { s.trg with
      bindings := s.trg.bindings.map fun b => { b with holdoffLeft := b.holdoffLeft - 1 } } }

/-- The reception after a restart at a new rate: a byte in it is dropped (R114, R169). -/
def Reception.drop : Reception → Reception
  | .idle => .idle
  | .begun | .dropped => .dropped

/-- TRG takes the settings of TRIGGER SET: a new rate restarts the receiver, and a byte in reception is dropped
(R114). -/
def Trg.take (t : Trg) (x : TriggerSettings) : Trg :=
  if x.rate = t.rate then { t with report := x.report }
  else { t.hunt with report := x.report, rate := x.rate, reception := t.reception.drop }

end Sys2Proof.Machine
end

