-- ==== Sys2Proof/Machine/Setup.lean ====
section
/-! DEFINITION. The setup area: its sections, the image a commit stores, and the loader (chapter 11). -/

namespace Sys2Proof.Machine

/-! ### The image a commit stores (R180, R184) -/

/-- The directory section. -/
def State.directoryBytes (s : State) : List Byte := s.clips.cells.flatMap fun c => definedClipBytes c.record

/-- The cue memory section: the cue image. -/
def State.cueImage (s : State) : List Byte := s.cues.cells.flatMap cueBytes

/-- The bindings section. -/
def State.bindingsBytes (s : State) : List Byte := s.trg.bindings.cells.flatMap bindingBytes

/-- The filter list section: the FILTER SET payload. -/
def State.filterBytes (s : State) : List Byte :=
  byte1 s.trg.filterList.length :: s.trg.filterList.flatMap fun c => be32 c.toNat

/-- The settings section: the OUTPUT SET payload, then the TRIGGER SET payload. -/
def State.settingsBytes (s : State) : List Byte :=
  s.out.settingsBytes ++ [s.trg.rate.code, s.trg.report.code]

/-- One lane's entry of the autostart section; the slot byte of a lane with no autostart slot is stored as 0 (log 28). -/
def autostartBytes : Option (Fin 256) → List Byte
  | none => [0, 0]
  | some slot => [1, byte1 slot.val]

/-- The autostart section. -/
def State.autostartSection (s : State) : List Byte := s.autostart.cells.flatMap autostartBytes

/-- A section's entry in the section table: its length and its CRC-16 (R180). -/
def tableEntry (b : List Byte) : List Byte := be16 b.length ++ be16 (crc16 b).toNat

/-- The content of sector 0: the section table and five sections (R180). -/
def State.sectorZeroImage (s : State) : List Byte :=
  tableEntry s.directoryBytes ++ tableEntry s.cueImage ++ tableEntry s.bindingsBytes ++ tableEntry s.filterBytes
    ++ tableEntry s.settingsBytes ++ tableEntry s.autostartSection
    ++ s.directoryBytes ++ s.bindingsBytes ++ s.filterBytes ++ s.settingsBytes ++ s.autostartSection

/-- Page `p` of an image; bytes beyond the image are 0xFF (R180). -/
def pageOf (image : List Byte) (p : Nat) : List Byte :=
  let b := (image.drop (p * Config.pageBytes)).take Config.pageBytes
  b ++ List.replicate (Config.pageBytes - b.length) 0xFF

/-- The work of a commit step (R184): its sector, and for a program step its page address and bytes. -/
def State.commitWork (s : State) (k : Nat) : Fin 128 × Option (Nat × List Byte) :=
  if k = 1 then (1, none)
  else if k ≤ 17 then (1, some (Config.sectorBytes + (k - 2) * Config.pageBytes, pageOf s.cueImage (k - 2)))
  else if k = 18 then (0, none)
  else (0, some ((k - 19) * Config.pageBytes, pageOf s.sectorZeroImage (k - 19)))

/-! ### Loading (R181, R182) -/

/-- The status of a section (R181). -/
inductive SectionStatus where
  | loaded
  | blank
  | corrupt
deriving DecidableEq, Repr

def SectionStatus.code : SectionStatus → Nat
  | .loaded => 0
  | .blank => 1
  | .corrupt => 2

/-- A section as the loader decides it: its content when LOADED, or BLANK or CORRUPT (R181). -/
inductive SectionResult (α : Type) where
  | loaded (content : α)
  | blank
  | corrupt

def SectionResult.status {α : Type} : SectionResult α → SectionStatus
  | .loaded _ => .loaded
  | .blank => .blank
  | .corrupt => .corrupt

/-- The content the owner takes: the section's, or the default (R182). -/
def SectionResult.getD {α : Type} (r : SectionResult α) (d : α) : α :=
  match r with
  | .loaded x => x
  | _ => d

/-- The bytes cut into records of `size` bytes each, `count` of them. -/
def records (size : Nat) : Nat → List Byte → List (List Byte)
  | 0, _ => []
  | count + 1, b => b.take size :: records size count (b.drop size)

/-- A list of checks that all pass, or none. -/
def allSome {α β : Type} (f : α → Option β) : List α → Option (List β)
  | [] => some []
  | x :: xs => match f x, allSome f xs with
    | some y, some ys => some (y :: ys)
    | _, _ => none

/-- The value of a check, none where it failed. -/
def passed {α : Type} : Except Nat α → Option α
  | .ok x => some x
  | .error _ => none

/-- A directory record: the defined byte, then offsets 1 to 18, checked by R123 when defined (R181 step 4). -/
def loadClip (b : List Byte) : Option Clip :=
  if yesNo (b.getD 0 0) then (passed (clipRecordOf (clipWireOf (b.drop 1)))).map fun r => ⟨some r, 0⟩
  else some Clip.empty

/-- A slot of the cue image: op 0 is EMPTY, any other block is checked by R60 (R181 step 4). -/
def loadCue (b : List Byte) : Option (Option CueBlock) :=
  if (b.getD 0 0).toNat = 0 then some none else (passed (cueBlockOf b)).map some

/-- A binding record, checked by R111 (R181 step 4). -/
def loadBinding (b : List Byte) : Option Binding := passed (bindingOf (bindingWireOf b))

/-- The filter list (R181 step 4): the count is 32 or less. -/
def loadFilter (b : List Byte) : Option (List Code) :=
  let n := (b.getD 0 0).toNat
  if 32 < n then none else some ((records 4 n (b.drop 1)).map fun c => BitVec.ofNat 32 (beNat c))

/-- The settings, checked by R147 and R114 (R181 step 4). -/
def loadSettings (b : List Byte) : Option (OutputSettings × TriggerSettings) :=
  match outputOf (b.getD 0 0) (b.getD 1 0 ++ b.getD 2 0) (b.getD 3 0 ++ b.getD 4 0) (b.getD 5 0) (b.getD 6 0),
        triggerOf (b.getD 7 0) (b.getD 8 0) with
  | .ok x, .ok y => some (x, y)
  | _, _ => none

/-- One lane's autostart entry: no field can fail (R181 step 4). -/
def loadAutostart (b : List Byte) : Option (Fin 256) :=
  if yesNo (b.getD 0 0) then some (b.getD 1 0).toFin else none

/-- A table loaded record by record. -/
def loadTable {α : Type} (n size : Nat) (fill : α) (f : List Byte → Option α) (b : List Byte) : Option (Table α n) :=
  (allSome f (records size n b)).map (Table.ofList n fill)

/-- A section whose length has passed: its CRC, then its fields (R181 steps 3 to 5). -/
def checkSection {α : Type} (content : List Byte) (crc : Half) (f : List Byte → Option α) : SectionResult α :=
  if crc16 content ≠ crc then .corrupt
  else match f content with
    | none => .corrupt
    | some x => .loaded x

/-- The length and CRC the section table gives section `i` (R180). -/
def tableLength (table : List Byte) (i : Nat) : Nat := beNat ((table.drop (4 * i)).take 2)
def tableCrc (table : List Byte) (i : Nat) : Half := BitVec.ofNat 16 (beNat ((table.drop (4 * i + 2)).take 2))

/-- The filter list section's length is allowed (R181 step 2): 1 + 4n with n 0..32, n the section's first byte. -/
def filterLengthOk (m : Memory) (a length : Nat) : Bool :=
  decide (length ≤ 129) && decide (length = 1 + 4 * (m.read a).toNat)

/-- What the loader has read of the setup area (R181). -/
structure Loaded where
  directory : SectionResult (Table Clip 64)
  cues : SectionResult (Table (Option CueBlock) 256)
  bindings : SectionResult (Table Binding 32)
  filter : SectionResult (List Code)
  settings : SectionResult (OutputSettings × TriggerSettings)
  autostart : SectionResult (Table (Option (Fin 256)) 4)

/-- Every section BLANK (R181 step 1). -/
def Loaded.allBlank : Loaded := ⟨.blank, .blank, .blank, .blank, .blank, .blank⟩

/-- A section of sector 0 (R181 steps 2 to 5): `ok` says that every section before it had its place, `place` that this
one's length passes. -/
def sectionAt {α : Type} (m : Memory) (ok : Bool) (a length : Nat) (crc : Half) (f : List Byte → Option α) :
    SectionResult α :=
  if ok then checkSection (m.readBytes a length) crc f else .corrupt

/-- The loader reads the setup area (R181). The sections of sector 0 are found by the lengths of those before them, and
one CORRUPT by its length makes every later one of sector 0 CORRUPT. -/
def loadSections (m : Memory) : Loaded :=
  let table := m.readBytes 0 24
  if table = List.replicate 24 0xFF then Loaded.allBlank else
  let len := tableLength table
  let crc := tableCrc table
  let aDir := 24
  let okDir := decide (len 0 = 1216)
  let aBind := aDir + len 0
  let okBind := okDir && decide (len 2 = 320)
  let aFilter := aBind + len 2
  let okFilter := okBind && filterLengthOk m aFilter (len 3)
  let aSettings := aFilter + len 3
  let okSettings := okFilter && decide (len 4 = 9)
  let aAuto := aSettings + len 4
  let okAuto := okSettings && decide (len 5 = 8)
  { directory := sectionAt m okDir aDir (len 0) (crc 0) (loadTable 64 19 Clip.empty loadClip)
    cues := sectionAt m (decide (len 1 = 4096)) Config.sectorBytes (len 1) (crc 1) (loadTable 256 16 none loadCue)
    bindings := sectionAt m okBind aBind (len 2) (crc 2) (loadTable 32 10 Binding.cold loadBinding)
    filter := sectionAt m okFilter aFilter (len 3) (crc 3) loadFilter
    settings := sectionAt m okSettings aSettings (len 4) (crc 4) loadSettings
    autostart := sectionAt m okAuto aAuto (len 5) (crc 5) (loadTable 4 2 none fun b => some (loadAutostart b)) }

/-- The value of SETUP_LOADED: two bits per section from the least significant up (R177, R182). -/
def Loaded.value (x : Loaded) : BitVec 32 :=
  BitVec.ofNat 32 (x.directory.status.code + 4 * x.cues.status.code + 16 * x.bindings.status.code
    + 64 * x.filter.status.code + 256 * x.settings.status.code + 1024 * x.autostart.status.code)

/-- The settings where none are loaded (R180). -/
def defaultSettings : OutputSettings × TriggerSettings := (⟨.stereo, 4095, 4095, true, 4⟩, ⟨.b9600, .nothing⟩)

/-- The autostart entries the loader hands over: each lane with an autostart slot, L0 first (R182). -/
def autostartEntries (t : Table (Option (Fin 256)) 4) : List (Fin 4 × Fin 256) :=
  allLanes.filterMap fun l => (t.get l).map fun slot => (l, slot)

/-- The owners take the sections' content or the defaults (R182). -/
def State.handOver (s : State) (x : Loaded) : State :=
  let settings := x.settings.getD defaultSettings
  let auto := x.autostart.getD (Table.const 4 none)
  { s with
    clips := x.directory.getD (Table.const 64 Clip.empty)
    cues := x.cues.getD (Table.const 256 none)
    trg := { s.trg.setFilter (x.filter.getD []) with
             bindings := x.bindings.getD (Table.const 32 Binding.cold)
             rate := settings.2.rate, report := settings.2.report }
    out := s.out.take settings.1
    autostart := auto
    autostartDue := autostartEntries auto
    loadDue := false }

/-- Both receivers leave OFF and SETUP_LOADED is posted, as one step (R182). -/
def State.loadingComplete (s : State) (x : Loaded) : State :=
  let lnk := { s.lnk with rx := .hunting, bytes := [], frameLength := none, gap := 0 }
  ({ s with trg := s.trg.hunt, lnk }).post .setupLoaded 0 0 0 x.value

/-- The loader loads the setup area (R181, R182), once a cold reset is over, its wait has ended and NRST is released. -/
def State.load (s : State) : State :=
  if s.power && !s.nrst && !s.coldWait && s.loadDue then
    let x := loadSections s.mem
    (s.handOver x).loadingComplete x
  else s

/-- LNC takes the next autostart entry: only a lane in IDLE is started (R95). -/
def State.nextAutostart (s : State) : State :=
  match s.autostartDue with
  | [] => s
  | (l, slot) :: rest =>
    let s := { s with autostartDue := rest }
    if (s.lane l).state = .idle then s.startLane l slot true .autostart else s

end Sys2Proof.Machine
end

