-- ==== Sys2Proof/Machine/LaneCommands.lean ====
section
/-! DEFINITION. The lane commands (chapter 5, R183), the taking of a signal (R84), of a retry round (R53) and of an
autostart entry (R95). -/

namespace Sys2Proof.Machine

/-- A lane request on the lane its byte names; a number above 3 is a bad field at offset 0. -/
def onLane (lane : Byte) (f : Fin 4 → State → Answer × State) (s : State) : Answer × State :=
  match finOf 4 lane.toNat with
  | none => badField s 0
  | some l => f l s

/-- LANE START at LNC (R77). -/
def State.laneStartAt (slot clear : Byte) (l : Fin 4) (s : State) : Answer × State :=
  match (s.lane l).state with
  | .idle => (Answer.ok, s.startLane l slot.toFin (yesNo clear) .link)
  | .faulted => (Answer.ok, s.startLane l slot.toFin (yesNo clear) .link)
  | .running => refuse s .busy
  | .waiting => refuse s .busy
  | .starved => refuse s .busy
  | .paused => refuse s .busy

/-- LANE START (R77). -/
def doLaneStart (lane slot clear : Byte) (s : State) : Answer × State := onLane lane (State.laneStartAt slot clear) s

/-- LANE PAUSE (R86). -/
def doLanePause (lane : Byte) (s : State) : Answer × State :=
  onLane lane (fun l s => (Answer.only (s.pauseRequest l).1, (s.pauseRequest l).2)) s

/-- LANE RESUME (R87). -/
def doLaneResume (lane : Byte) (s : State) : Answer × State :=
  onLane lane (fun l s => (Answer.only (s.resumeLane l).1, (s.resumeLane l).2)) s

/-- LANE ABORT (R89). -/
def doLaneAbort (lane voices : Byte) (s : State) : Answer × State :=
  onLane lane (fun l s =>
    if 1 < voices.toNat then badField s 1 else (Answer.ok, s.abortLane l (yesNo voices) true)) s

/-- LANE STATUS (R96). -/
def doLaneStatus (lane : Byte) (s : State) : Answer × State :=
  onLane lane (fun l s => (⟨.ok, laneStatusBytes l (s.lane l)⟩, s)) s

/-- AUTOSTART SET (R183). -/
def doAutostartSet (lane enabled slot : Byte) (s : State) : Answer × State :=
  onLane lane (fun l s =>
    if s.commitInFlight then refuse s .busy
    else (Answer.ok, { s with autostart := s.autostart.set l (if yesNo enabled then some slot.toFin else none) })) s

/-- LNC takes VCE's oldest signal (R84). -/
def State.nextSignal (s : State) : State :=
  match s.signals with
  | [] => s
  | h :: rest => ({ s with signals := rest }).takeSignal h

/-- LANE_START (R77). -/
def execLaneStart (tag lane slot clear : Byte) (s : State) : Result :=
  .next (s.request tag 0x28 (doLaneStart lane slot clear))

/-- LANE_PAUSE (R86). -/
def execLanePause (tag lane : Byte) (s : State) : Result := .next (s.request tag 0x29 (doLanePause lane))

/-- LANE_RESUME (R87). -/
def execLaneResume (tag lane : Byte) (s : State) : Result := .next (s.request tag 0x2A (doLaneResume lane))

/-- LANE_ABORT (R89). -/
def execLaneAbort (tag lane voices : Byte) (s : State) : Result := .next (s.request tag 0x2B (doLaneAbort lane voices))

/-- LANE_STATUS (R96). -/
def execLaneStatus (tag lane : Byte) (s : State) : Result := .next (s.request tag 0x2C (doLaneStatus lane))

/-- AUTOSTART_SET (R183). -/
def execAutostartSet (tag lane enabled slot : Byte) (s : State) : Result :=
  .next (s.request tag 0x2D (doAutostartSet lane enabled slot))

/-- AUTOSTART_ENTRY (R95). -/
def execAutostartEntry (s : State) : Result := .next s.nextAutostart

/-- HANDLE_NOT_LIVE (R84). -/
def execHandleNotLive (s : State) : Result := .next s.nextSignal

/-- RETRY_ROUND (R53, R54, R85). -/
def execRetryRound (s : State) : Result := .next s.retryRound

end Sys2Proof.Machine
end

