-- ==== Sys2Proof/Machine/Part.lean ====
section
/-! DEFINITION. IDENTIFY and LINK SET (R168, R169). -/

namespace Sys2Proof.Machine

/-- The reply data of IDENTIFY, in the order of R168: vendor code, part code, revision, voices, clips, cue slots, lanes,
bindings, event records. -/
def identityBytes : List Byte := be16 0x3A71 ++ be16 0x0C16 ++ [1, 16, 64] ++ be16 256 ++ [4, 32, 64]

/-- IDENTIFY (R168). -/
def doIdentify (s : State) : Answer × State := (⟨.ok, identityBytes⟩, s)

/-- LINK SET (R169): the new rate is taken when the reply has left HTX. -/
def doLinkSet (rate : Byte) (s : State) : Answer × State :=
  match LinkRate.ofCode rate with
  | none => badField s 0
  | some r => (Answer.ok, { s with lnk := { s.lnk with after := .newRate r } })

/-- IDENTIFY (R168). -/
def execIdentify (tag : Byte) (s : State) : Result := .next (s.request tag 0x01 doIdentify)

/-- LINK_SET (R169). -/
def execLinkSet (tag rate : Byte) (s : State) : Result := .next (s.request tag 0x03 (doLinkSet rate))

end Sys2Proof.Machine
end

