-- ==== Sys2Proof/Machine/Reports.lean ====
section
/-! DEFINITION. OUTPUT SET (R147), EVENT READ (R154) and TALLY READ (R157). -/

namespace Sys2Proof.Machine

/-- OUTPUT SET (R147). -/
def doOutputSet (mode : Byte) (left right : Half) (mute deadZone : Byte) (s : State) : Answer × State :=
  match outputOf mode left right mute deadZone with
  | .error i => badField s i
  | .ok x =>
    if s.commitInFlight then refuse s .busy
    else
      let o := s.out.take x
      (⟨.ok, o.mute.code :: be16 o.mutePos⟩, { s with out := o })

/-- LNC posts and removes the held notices, L0 first (R92). -/
def State.releaseNotices (s : State) : State :=
  allLanes.foldl (fun s l => s.postNotice l) s

/-- EVQ removes the `n` oldest records (R154 step 2). -/
def Evq.remove (e : Evq) (n : Nat) : Evq := { e with queue := e.queue.drop n }

/-- The reply data of EVENT READ (R154, R174). -/
def eventData (taken : List EventRecord) (left : Evq) : List Byte :=
  byte1 taken.length :: taken.flatMap eventBytes ++ [byte1 left.queue.length, byte1 left.lost]

/-- EVENT READ (R154). -/
def doEventRead (count : Byte) (s : State) : Answer × State :=
  if count.toNat = 0 ∨ 8 < count.toNat then badField s 0
  else
    let t := s.releaseNotices
    let e := t.evq.remove count.toNat
    (⟨.ok, eventData (t.evq.queue.take count.toNat) e⟩, { t with evq := e })

/-- EVQ's tallies after a TALLY READ (R157). -/
def Evq.readTallies (e : Evq) (clear : Bool) : Evq :=
  { e with tallies := if clear then Table.const 11 0 else e.tallies }

/-- TALLY READ (R157). -/
def doTallyRead (choice : Byte) (s : State) : Answer × State :=
  if 1 < choice.toNat then badField s 0
  else (⟨.ok, s.evq.tallies.cells.flatMap be16⟩, { s with evq := s.evq.readTallies (yesNo choice) })

/-- OUTPUT_SET (R147). -/
def execOutputSet (tag mode : Byte) (left right : Half) (mute deadZone : Byte) (s : State) : Result :=
  .next (s.request tag 0x40 (doOutputSet mode left right mute deadZone))

/-- EVENT_READ (R154). -/
def execEventRead (tag count : Byte) (s : State) : Result := .next (s.request tag 0x48 (doEventRead count))

/-- TALLY_READ (R157). -/
def execTallyRead (tag choice : Byte) (s : State) : Result := .next (s.request tag 0x49 (doTallyRead choice))

end Sys2Proof.Machine
end

