-- ==== Sys2Proof/Machine/Store.lean ====
section
/-! DEFINITION. The clip directory and the sample store: store steps, and the clip and store commands (chapter 7, and the
SETUP COMMIT of chapter 11). -/

namespace Sys2Proof.Machine

/-! ### Store steps (R118, R119, R128, R131, R132, R184, R185) -/

/-- A sector at the start of a step: open mark set, busy yes (R118, R128). -/
def Sector.begun (x : Sector) : Sector := { x with busy := true, openMark := true }

/-- A sector after a step of it ended with a result (R118, R119, R128). -/
def Sector.ended (x : Sector) (erase : Bool) (r : StoreResult) : Sector :=
  { x with busy := false, openMark := false
           suspect := match r with
             | .ok => if erase then false else x.suspect
             | .timeout => true
             | .verifyFail => true }

/-- The limit a step is loaded with (R128). -/
def stepLimit (page : Option Nat) : Nat := if page.isSome then Config.programLimit else Config.eraseLimit

/-- A store step begins with this operation record (R128). -/
def State.beginStep (s : State) (r : OpRecord) : State :=
  { s.setSector r.sector (s.sectors.get r.sector).begun with op := some r }

/-- The operation record of an ERASE (R129). -/
def eraseRecord (sector : Fin 128) : OpRecord :=
  { op := .erase, sector, page := none, limitLeft := stepLimit none, commitStep := none, data := none, image := none }

/-- The operation record of a PROGRAM (R130). -/
def programRecord (sector : Fin 128) (page : Nat) (data : List Byte) : OpRecord :=
  { op := .program, sector, page := some page, limitLeft := stepLimit (some page), commitStep := none, data := some data
    image := none }

/-- The operation record of a step of a COMMIT (R184). -/
def State.commitRecord (s : State) (k : Nat) : OpRecord :=
  let page := (s.commitWork k).2.map fun p => p.1
  { op := .commit, sector := (s.commitWork k).1, page, limitLeft := stepLimit page, commitStep := some k, data := none
    image := (s.commitWork k).2.map fun p => p.2 }

/-- The bytes a program step programs and verifies (R130, R184). -/
def OpRecord.bytes (r : OpRecord) : List Byte :=
  match r.data with
  | some d => d
  | none => r.image.getD []

/-- The store after the array has finished the step, and the step's result (R117, R128, R131). -/
def OpRecord.finished (r : OpRecord) (m : Memory) : Memory × StoreResult :=
  match r.page with
  | none => (m.erase (r.sector.val * Config.sectorBytes) Config.sectorBytes, .ok)
  | some a =>
    let m' := m.program a r.bytes
    (m', if m'.readBytes a r.bytes.length = r.bytes then .ok else .verifyFail)

/-- The store after a step that stopped short: free values in the sector of an erase, in the page of a program (R128,
POWER_LOSS, log 8). -/
def OpRecord.damaged (r : OpRecord) (m : Memory) (k : Nat) : Memory :=
  match r.page with
  | none =>
    m.writeBytes (r.sector.val * Config.sectorBytes) (damagedBytes k (r.sector.val * Config.sectorBytes) Config.sectorBytes)
  | some a => m.writeBytes a (damagedBytes k a Config.pageBytes)

/-- The byte address a STORE_DONE carries (R132, R185). -/
def OpRecord.address (r : OpRecord) : Nat :=
  match r.page with
  | none => r.sector.val * Config.sectorBytes
  | some a => a

/-- STORE_DONE for an operation that has ended with a result (R132, R185). -/
def State.postStoreDone (s : State) (r : OpRecord) (result : StoreResult) : State :=
  s.post .storeDone r.sector.val 0 result.code
    (eventValue r.op.code (byte1 (r.address / 65536)) (byte1 (r.address / 256)) (byte1 r.address))

/-- The step of a commit that follows this one, where one does (R185). -/
def OpRecord.nextCommitStep (r : OpRecord) (result : StoreResult) : Option Nat :=
  match r.op, r.commitStep with
  | .commit, some k => if result = .ok ∧ k < Config.commitSteps then some (k + 1) else none
  | _, _ => none

/-- A store step ends with a result (R128): the sector, then the end of the cold reset's wait without a record (R136), the
next step of a commit (R185), or the end of the operation with STORE_DONE (R132). -/
def State.endStep (s : State) (r : OpRecord) (result : StoreResult) : State :=
  let s := s.setSector r.sector ((s.sectors.get r.sector).ended r.page.isNone result)
  if s.coldWait then { s with op := none, coldWait := false }
  else match r.nextCommitStep result with
    | some k => s.beginStep (s.commitRecord k)
    | none => ({ s with op := none }).postStoreDone r result

/-- The array reports the step in progress finished (R128); with no step in progress the report is disregarded. -/
def State.stepDone (s : State) : State :=
  match s.op with
  | none => s
  | some r => ({ s with mem := (r.finished s.mem).1 }).endStep r (r.finished s.mem).2

/-- The step in progress runs out of time (R128). -/
def State.stepTimesOut (s : State) : State :=
  match s.op with
  | none => s
  | some r => ({ s with mem := r.damaged s.mem s.damage, damage := s.damage + 1 }).endStep r .timeout

/-- The limit left of the step in progress reaches 0 at the coming tick. -/
def State.stepEndsNext (s : State) : Bool :=
  match s.op with
  | none => false
  | some r => decide (r.limitLeft ≤ 1)

/-- STO takes a millisecond tick (R128). -/
def State.tickStore (s : State) : State :=
  match s.op with
  | none => s
  | some r => if r.limitLeft ≤ 1 then s.stepTimesOut else { s with op := some { r with limitLeft := r.limitLeft - 1 } }

/-! ### The clip requests -/

/-- CLIP DEFINE at DIR (R124). -/
def State.defineClip (s : State) (c : Fin 64) (r : ClipRecord) : Answer × State :=
  if s.commitInFlight then refuse s .busy
  else if 0 < (s.clip c).useCount then refuse s .inUse
  else if s.touchedSector r fun x => x.suspect then refuse s .suspect
  else (Answer.ok, s.setClip c { s.clip c with record := some r })

/-- CLIP DEFINE (R123, R124). -/
def doClipDefine (w : ClipWire) (s : State) : Answer × State :=
  match finOf 64 w.clip.toNat with
  | none => badField s 0
  | some c => match clipRecordOf w with
    | .error i => badField s i
    | .ok r => s.defineClip c r

/-- CLIP DELETE (R125). -/
def doClipDelete (clip : Byte) (s : State) : Answer × State :=
  match finOf 64 clip.toNat with
  | none => badField s 0
  | some c =>
    if s.commitInFlight then refuse s .busy
    else if 0 < (s.clip c).useCount then refuse s .inUse
    else (Answer.ok, s.setClip c { s.clip c with record := none })

/-- CLIP READ (R126). -/
def doClipRead (clip : Byte) (s : State) : Answer × State :=
  match finOf 64 clip.toNat with
  | none => badField s 0
  | some c => (⟨.ok, byte1 (s.clip c).useCount :: definedClipBytes (s.clip c).record⟩, s)

/-! ### The store requests -/

/-- A byte of a range lies in a busy sector (R133). -/
def State.rangeBusy (s : State) (a count : Nat) : Bool :=
  s.sectors.anyIdx fun i x =>
    x.busy && decide (a / Config.sectorBytes ≤ i) && decide (i ≤ (a + count - 1) / Config.sectorBytes)

/-- STORE READ (R133). -/
def doStoreRead (addr : Addr) (count : Half) (s : State) : Answer × State :=
  if Config.storeBytes ≤ addr.toNat then badField s 0
  else if count.toNat = 0 ∨ 256 < count.toNat ∨ Config.storeBytes < addr.toNat + count.toNat then badField s 3
  else if s.rangeBusy addr.toNat count.toNat then refuse s .busy
  else (⟨.ok, Memory.readBytes s.mem addr.toNat count.toNat⟩, s)

/-- The owner's conditions of STORE ERASE and STORE PROGRAM (R129, R130), and the step begun. -/
def State.beginOn (s : State) (sector : Fin 128) (r : OpRecord) : Answer × State :=
  if s.op.isSome then refuse s .busy
  else if sector.val < 2 then refuse s .isProtected
  else if 0 < (s.sectors.get sector).useCount then refuse s .inUse
  else (Answer.only .accepted, s.beginStep r)

/-- STORE PROGRAM (R130). -/
def doStoreProgram (addr : Addr) (data : List Byte) (s : State) : Answer × State :=
  if data.length ≠ Config.pageBytes then refuse s .badLength
  else match finOf 128 (addr.toNat / Config.sectorBytes) with
    | none => badField s 0
    | some sector =>
      if addr.toNat % Config.pageBytes ≠ 0 then badField s 0
      else s.beginOn sector (programRecord sector addr.toNat data)

/-- STORE ERASE (R129). -/
def doStoreErase (sector : Byte) (s : State) : Answer × State :=
  match finOf 128 sector.toNat with
  | none => badField s 0
  | some i => s.beginOn i (eraseRecord i)

/-- STORE STATUS (R134). -/
def doStoreStatus (s : State) : Answer × State := (⟨.ok, storeStatusBytes s⟩, s)

/-- SETUP COMMIT (R184). -/
def doSetupCommit (s : State) : Answer × State :=
  if s.op.isSome then refuse s .busy else (Answer.only .accepted, s.beginStep (s.commitRecord 1))

/-! ### The commands -/

/-- CLIP_DEFINE (R123, R124). -/
def execClipDefine (tag : Byte) (w : ClipWire) (s : State) : Result := .next (s.request tag 0x10 (doClipDefine w))

/-- CLIP_DELETE (R125). -/
def execClipDelete (tag clip : Byte) (s : State) : Result := .next (s.request tag 0x11 (doClipDelete clip))

/-- CLIP_READ (R126). -/
def execClipRead (tag clip : Byte) (s : State) : Result := .next (s.request tag 0x12 (doClipRead clip))

/-- STORE_READ (R133). -/
def execStoreRead (tag : Byte) (addr : Addr) (count : Half) (s : State) : Result :=
  .next (s.request tag 0x18 (doStoreRead addr count))

/-- STORE_PROGRAM (R130). -/
def execStoreProgram (tag : Byte) (addr : Addr) (data : List Byte) (s : State) : Result :=
  .next (s.request tag 0x19 (doStoreProgram addr data))

/-- STORE_ERASE (R129). -/
def execStoreErase (tag sector : Byte) (s : State) : Result := .next (s.request tag 0x1A (doStoreErase sector))

/-- STORE_STATUS (R134). -/
def execStoreStatus (tag : Byte) (s : State) : Result := .next (s.request tag 0x1B doStoreStatus)

/-- SETUP_COMMIT (R184). -/
def execSetupCommit (tag : Byte) (s : State) : Result := .next (s.request tag 0x1C doSetupCommit)

/-- STORE_STEP_DONE (R128, R131, R132, R136, R185). -/
def execStoreStepDone (s : State) : Result := .next s.stepDone

end Sys2Proof.Machine
end

