-- ==== Sys2Proof/Machine/Reset.lean ====
section
/-! DEFINITION. The two resets at every block, NRST and the supply (R22, R23, R55, R97, R98, R115, R116, R135, R136, R138,
R148, R149, R158, R159, R170, R171, POWER_LOSS). -/

namespace Sys2Proof.Machine

/-! ### The warm reset -/

/-- A voice after a warm reset: FREE with its generation (R23). -/
def Voice.warm (x : Voice) : Voice := ⟨x.generation, .free⟩

/-- A clip or sector with no claim on it (R135, R136). -/
def Clip.unused (x : Clip) : Clip := { x with useCount := 0 }
def Sector.unused (x : Sector) : Sector := { x with useCount := 0 }

/-- TRG after a warm reset (R116); that a byte in reception stays noted is the model's choice (log 20). -/
def Trg.warm (t : Trg) : Trg :=
  { t.hunt with bindings := t.bindings.map fun b => { b with holdoffLeft := 0 } }

/-- EVQ after a warm reset: the tallies are kept (R159). -/
def Evq.warm (e : Evq) : Evq := { e with queue := [], lost := 0 }

/-- The warm reset at every block (R170): STO's operation, DIR's records, CUM, OUT's settings and
counts, LNK and the autostart table are kept. -/
def State.warmReset (s : State) : State :=
  { s with
    voices := s.voices.map Voice.warm
    alc := ⟨[], false, none⟩
    signals := []
    clips := s.clips.map Clip.unused
    sectors := s.sectors.map Sector.unused
    lanes := Table.const 4 Lane.cold
    trg := s.trg.warm
    out := { s.out with contributions := Table.const 16 (0, 0) }
    evq := s.evq.warm
    autostartDue := [] }

/-! ### The cold reset -/

/-- The cold reset at every block (R136, R171). The store, the sector states, the open marks and the step in progress are
kept; every use count becomes 0 at once (log 11); the setup area is to be loaded. -/
def State.coldReset (s : State) : State :=
  { State.reset with
    sectors := s.sectors.map Sector.unused
    mem := s.mem
    op := s.op
    coldWait := s.op.isSome
    nrst := s.nrst
    power := s.power
    damage := s.damage
    openings := s.openings
    pending := s.pending }

/-! ### NRST and the supply -/

/-- NRST is asserted: a cold reset, where the part has power (R171, log 15). -/
def State.assertNrst (s : State) : State :=
  if s.nrst then s
  else if s.power then ({ s with nrst := true }).coldReset
  else { s with nrst := true }

/-- A sector at power-up (R119, R136): an open mark makes it SUSPECT and is removed; use count 0, busy no. -/
def Sector.poweredUp (x : Sector) : Sector := ⟨x.suspect || x.openMark, 0, false, false⟩

/-- Power returns: the state area is read, and the part comes up in its cold state (R136). -/
def State.powerOn (s : State) : State :=
  if s.power then s
  else
    { State.reset with
      sectors := s.sectors.map Sector.poweredUp
      mem := s.mem
      nrst := s.nrst
      power := true
      damage := s.damage
      openings := s.openings
      pending := s.pending }

/-- A sector while there is no power: its state and open mark stand in the state area (R118). -/
def Sector.unpowered (x : Sector) : Sector := { x with useCount := 0, busy := false }

/-- The store as power loss leaves it: a step in progress leaves free values (POWER_LOSS, log 8). -/
def State.lossMem (s : State) : List Host.Cell :=
  match s.op with
  | none => s.mem
  | some r => r.damaged s.mem s.damage

/-- Supply is lost: the array stops, working state is lost, the store and the state area remain (POWER_LOSS, log 16). -/
def State.powerOff (s : State) : State :=
  if s.power then
    { State.reset with
      sectors := s.sectors.map Sector.unpowered
      mem := s.lossMem
      loadDue := false
      nrst := s.nrst
      power := false
      damage := if s.op.isSome then s.damage + 1 else s.damage
      openings := s.openings
      pending := s.pending }
  else s

/-- RESET with WARM (R170). -/
def doResetWarm (s : State) : Answer × State := (Answer.ok, s.warmReset)

/-- RESET with COLD (R170): the reset comes when the reply has left HTX. -/
def doResetCold (s : State) : Answer × State := (Answer.ok, { s with lnk := { s.lnk with after := .coldReset } })

/-- RESET_WARM (R170). -/
def execResetWarm (tag : Byte) (s : State) : Result := .next (s.request tag 0x02 doResetWarm)

/-- RESET_COLD (R170). -/
def execResetCold (tag : Byte) (s : State) : Result := .next (s.request tag 0x02 doResetCold)

/-- NRST_ASSERT (R171). -/
def execNrstAssert (s : State) : Result := .next s.assertNrst

/-- NRST_RELEASE (R138). -/
def execNrstRelease (s : State) : Result := .next { s with nrst := false }

/-- POWER_UP (R136). -/
def execPowerUp (s : State) : Result := .next s.powerOn

/-- POWER_LOSS (R136, R186). -/
def execPowerLoss (s : State) : Result := .next s.powerOff

/-- SETUP_LOAD (R181, R182). -/
def execSetupLoad (s : State) : Result := .next s.load

end Sys2Proof.Machine
end

