-- ==== Sys2Proof/Machine/TriggerCommands.lean ====
section
/-! DEFINITION. The trigger requests (R104, R111 to R114) and the bytes on TRX (R100). -/

namespace Sys2Proof.Machine

/-- FILTER SET (R104). -/
def doFilterSet (count : Byte) (codes : List Code) (s : State) : Answer × State :=
  if codes.length ≠ count.toNat then refuse s .badLength
  else if 32 < count.toNat then badField s 0
  else if s.commitInFlight then refuse s .busy
  else
    let t := s.trg.setFilter codes
    (⟨.ok, [byte1 (markedCount t.filterTable)]⟩, { s with trg := t })

/-- BIND SET (R111). -/
def doBindSet (w : BindingWire) (s : State) : Answer × State :=
  match finOf 32 w.binding.toNat with
  | none => badField s 0
  | some i => match bindingOf w with
    | .error k => badField s k
    | .ok b => if s.commitInFlight then refuse s .busy else (Answer.ok, s.setBinding i b)

/-- BIND CLEAR (R112). -/
def doBindClear (binding : Byte) (s : State) : Answer × State :=
  match finOf 32 binding.toNat with
  | none => badField s 0
  | some i =>
    if s.commitInFlight then refuse s .busy
    else (Answer.ok, s.setBinding i { s.binding i with enabled := false, holdoffLeft := 0 })

/-- BIND READ (R113). -/
def doBindRead (binding : Byte) (s : State) : Answer × State :=
  match finOf 32 binding.toNat with
  | none => badField s 0
  | some i => (⟨.ok, binding :: bindingBytes (s.binding i) ++ be16 (s.binding i).holdoffLeft⟩, s)

/-- TRIGGER SET (R114). -/
def doTriggerSet (rate report : Byte) (s : State) : Answer × State :=
  match triggerOf rate report with
  | .error k => badField s k
  | .ok x => if s.commitInFlight then refuse s .busy else (Answer.ok, { s with trg := s.trg.take x })

/-- FILTER_SET (R104). -/
def execFilterSet (tag count : Byte) (codes : List Code) (s : State) : Result :=
  .next (s.request tag 0x38 (doFilterSet count codes))

/-- BIND_SET (R111). -/
def execBindSet (tag : Byte) (w : BindingWire) (s : State) : Result := .next (s.request tag 0x39 (doBindSet w))

/-- BIND_CLEAR (R112). -/
def execBindClear (tag binding : Byte) (s : State) : Result := .next (s.request tag 0x3A (doBindClear binding))

/-- BIND_READ (R113). -/
def execBindRead (tag binding : Byte) (s : State) : Result := .next (s.request tag 0x3B (doBindRead binding))

/-- TRIGGER_SET (R114). -/
def execTriggerSet (tag rate report : Byte) (s : State) : Result := .next (s.request tag 0x3C (doTriggerSet rate report))

/-- TRIGGER_BYTE_RECEIVED (R100, R101). -/
def execTriggerByteReceived (event : LineEvent) (good : Bool) (s : State) : Result := .next (s.trigLine good event)

/-- TRIGGER_FRAME_COMPLETE (R100, R102): the good byte that completes the frame (log 2). -/
def execTriggerFrameComplete (last : Byte) (s : State) : Result := .next (s.trigByte last true)

end Sys2Proof.Machine
end

