-- ==== Sys2Proof/Machine/VoiceCommands.lean ====
section
/-! DEFINITION. The voice requests (R20, R21, R40). -/

namespace Sys2Proof.Machine

/-- The reply data of VOICE PLAY: the handle, and SOUNDING (0) or PENDING (1) (R174). -/
def playData (h : Handle) (awaiting : Bool) : List Byte := handleBytes (some h) ++ [boolByte awaiting]

/-- VOICE PLAY at ALC (R40, R41): the REVERSE check of R42 has the index of the flags field. -/
def State.playAnswer : OrderAnswer × State → Answer × State
  | (.sounding h, s) => (⟨.ok, playData h false⟩, s)
  | (.awaiting h, s) => (⟨.ok, playData h true⟩, s)
  | (.failed st, s) => (Answer.only st, s)
  | (.badReverse, s) => (Answer.badField 11, s)

/-- VOICE PLAY (R40). -/
def doVoicePlay (w : OrderWire) (s : State) : Answer × State :=
  match orderOf w with
  | .error i => badField s i
  | .ok o => State.playAnswer (s.takeOrder o .link)

/-- An operation on the handle a request names (R20); a voice number above 15 is a bad field at offset 0. -/
def onVoice (voice generation : Byte) (f : State → Handle → Status × State) (s : State) : Answer × State :=
  match finOf 16 voice.toNat with
  | none => badField s 0
  | some v => (Answer.only (f s ⟨v, generation⟩).1, (f s ⟨v, generation⟩).2)

/-- VOICE RAMP (R15, R20). -/
def doVoiceRamp (voice generation : Byte) (target : Half) (rate scale mode notify : Byte) (s : State) : Answer × State :=
  match finOf 16 voice.toNat with
  | none => badField s 0
  | some v => match rampOf target rate scale mode (yesNo notify) 2 with
    | .error i => badField s i
    | .ok r => (Answer.only (s.opRamp ⟨v, generation⟩ r).1, (s.opRamp ⟨v, generation⟩ r).2)

/-- VOICE RELEASE (R16, R20). -/
def doVoiceRelease (voice generation : Byte) (s : State) : Answer × State := onVoice voice generation State.opRelease s

/-- VOICE STOP (R17, R20). -/
def doVoiceStop (voice generation : Byte) (s : State) : Answer × State := onVoice voice generation State.opStop s

/-- VOICE HOLD (R18, R20). -/
def doVoiceHold (voice generation : Byte) (s : State) : Answer × State := onVoice voice generation State.opHold s

/-- VOICE CONTINUE (R18, R20). -/
def doVoiceContinue (voice generation : Byte) (s : State) : Answer × State :=
  onVoice voice generation State.opContinue s

/-- VOICE STATUS (R21). -/
def doVoiceStatus (voice : Byte) (s : State) : Answer × State :=
  match finOf 16 voice.toNat with
  | none => badField s 0
  | some v => (⟨.ok, voiceStatusBytes v (s.voice v)⟩, s)

/-- VOICE_PLAY (R40). -/
def execVoicePlay (tag : Byte) (w : OrderWire) (s : State) : Result := .next (s.request tag 0x30 (doVoicePlay w))

/-- VOICE_RAMP (R15). -/
def execVoiceRamp (tag voice generation : Byte) (target : Half) (rate scale mode notify : Byte) (s : State) : Result :=
  .next (s.request tag 0x31 (doVoiceRamp voice generation target rate scale mode notify))

/-- VOICE_RELEASE (R16). -/
def execVoiceRelease (tag voice generation : Byte) (s : State) : Result :=
  .next (s.request tag 0x32 (doVoiceRelease voice generation))

/-- VOICE_STOP (R17). -/
def execVoiceStop (tag voice generation : Byte) (s : State) : Result :=
  .next (s.request tag 0x33 (doVoiceStop voice generation))

/-- VOICE_HOLD (R18). -/
def execVoiceHold (tag voice generation : Byte) (s : State) : Result :=
  .next (s.request tag 0x34 (doVoiceHold voice generation))

/-- VOICE_CONTINUE (R18). -/
def execVoiceContinue (tag voice generation : Byte) (s : State) : Result :=
  .next (s.request tag 0x35 (doVoiceContinue voice generation))

/-- VOICE_STATUS (R21). -/
def execVoiceStatus (tag voice : Byte) (s : State) : Result := .next (s.request tag 0x36 (doVoiceStatus voice))

end Sys2Proof.Machine
end

