-- ==== Sys2Proof/Machine/Receive.lean ====
section
/-! DEFINITION. The host line: the bytes on HRX, the frames they make, the requests the frames spell, and the end of a
reply (R160 to R166, R169 to R171). -/

namespace Sys2Proof.Machine

/-! ### The request a frame spells (R166, R174) -/

/-- A request's stages from the length check on. -/
abbrev Taking := State → Answer × State

/-- A request refused for its length (R166 stage 2). -/
def badLength (s : State) : Answer × State := refuse s .badLength

/-- A request whose payload has the one length its type allows (R174). -/
def sized (n : Nat) (payload : List Byte) (f : (Nat → Byte) → Taking) : Taking :=
  if payload.length = n then f fun i => payload.getD i 0 else badLength

/-- Two and three bytes of a payload as one field (R172). -/
def half (p : Nat → Byte) (i : Nat) : Half := p i ++ p (i + 1)
def addr (p : Nat → Byte) (i : Nat) : Addr := (p i ++ p (i + 1) : BitVec 16) ++ p (i + 2)

/-- The start order of a VOICE PLAY payload (R175). -/
def orderWire (p : Nat → Byte) : OrderWire :=
  { clip := p 0, priority := p 1, group := p 2, step := half p 3, level := half p 5, pan := p 7, loopCount := p 8
    releaseRate := p 9, releaseScale := p 10, flags := p 11, rampTarget := half p 12, rampRate := p 14, rampScale := p 15
    rampMode := p 16, rampNotify := p 17 }

/-- The clip record of a CLIP DEFINE payload (R175). -/
def clipWire (p : Nat → Byte) : ClipWire :=
  { clip := p 0, format := p 1, base := addr p 2, count := addr p 5, loopMode := p 8, loopStart := addr p 9
    loopEnd := addr p 12, step := half p 15, releaseRate := p 17, releaseScale := p 18 }

/-- The binding record of a BIND SET payload (R176). -/
def bindingWire (p : Nat → Byte) : BindingWire :=
  { binding := p 0, enabled := p 1, code := eventValue (p 2) (p 3) (p 4) (p 5), lane := p 6, entry := p 7, clear := p 8
    policy := p 9, holdoff := p 10 }

/-- RESET (R170). -/
def takeReset (kind : Byte) : Taking :=
  match kind.toNat with
  | 0 => doResetWarm
  | 1 => doResetCold
  | _ => fun s => badField s 0

/-- FILTER SET: the length must be one more than four times the count (R174). -/
def takeFilterSet : List Byte → Taking
  | [] => badLength
  | count :: rest =>
    if rest.length = 4 * count.toNat then
      doFilterSet count ((records 4 count.toNat rest).map fun c => BitVec.ofNat 32 (beNat c))
    else badLength

/-- The request that a type and a payload spell, from its type check on (R166, R174). -/
def requestOf (type : Byte) (payload : List Byte) : Taking :=
  match type.toNat with
  | 0x01 => sized 0 payload fun _ => doIdentify
  | 0x02 => sized 1 payload fun p => takeReset (p 0)
  | 0x03 => sized 1 payload fun p => doLinkSet (p 0)
  | 0x10 => sized 19 payload fun p => doClipDefine (clipWire p)
  | 0x11 => sized 1 payload fun p => doClipDelete (p 0)
  | 0x12 => sized 1 payload fun p => doClipRead (p 0)
  | 0x18 => sized 5 payload fun p => doStoreRead (addr p 0) (half p 3)
  | 0x19 => sized 259 payload fun p => doStoreProgram (addr p 0) (payload.drop 3)
  | 0x1A => sized 1 payload fun p => doStoreErase (p 0)
  | 0x1B => sized 0 payload fun _ => doStoreStatus
  | 0x1C => sized 0 payload fun _ => doSetupCommit
  | 0x20 => sized 17 payload fun p => doCueWrite (p 0) (payload.drop 1)
  | 0x21 => sized 2 payload fun p => doCueClear (p 0) (p 1)
  | 0x22 => sized 2 payload fun p => doCueRead (p 0) (p 1)
  | 0x28 => sized 3 payload fun p => doLaneStart (p 0) (p 1) (p 2)
  | 0x29 => sized 1 payload fun p => doLanePause (p 0)
  | 0x2A => sized 1 payload fun p => doLaneResume (p 0)
  | 0x2B => sized 2 payload fun p => doLaneAbort (p 0) (p 1)
  | 0x2C => sized 1 payload fun p => doLaneStatus (p 0)
  | 0x2D => sized 3 payload fun p => doAutostartSet (p 0) (p 1) (p 2)
  | 0x30 => sized 18 payload fun p => doVoicePlay (orderWire p)
  | 0x31 => sized 8 payload fun p => doVoiceRamp (p 0) (p 1) (half p 2) (p 4) (p 5) (p 6) (p 7)
  | 0x32 => sized 2 payload fun p => doVoiceRelease (p 0) (p 1)
  | 0x33 => sized 2 payload fun p => doVoiceStop (p 0) (p 1)
  | 0x34 => sized 2 payload fun p => doVoiceHold (p 0) (p 1)
  | 0x35 => sized 2 payload fun p => doVoiceContinue (p 0) (p 1)
  | 0x36 => sized 1 payload fun p => doVoiceStatus (p 0)
  | 0x38 => takeFilterSet payload
  | 0x39 => sized 11 payload fun p => doBindSet (bindingWire p)
  | 0x3A => sized 1 payload fun p => doBindClear (p 0)
  | 0x3B => sized 1 payload fun p => doBindRead (p 0)
  | 0x3C => sized 2 payload fun p => doTriggerSet (p 0) (p 1)
  | 0x40 => sized 7 payload fun p => doOutputSet (p 0) (half p 1) (half p 3) (p 5) (p 6)
  | 0x48 => sized 1 payload fun p => doEventRead (p 0)
  | 0x49 => sized 1 payload fun p => doTallyRead (p 0)
  | _ => fun s => refuse s .badType

/-! ### Frames and bytes (R161, R162, R164) -/

/-- LNK takes a complete frame of the bytes after its sync (R164); `length` is its length field. -/
def State.takeFrame (s : State) (bytes : List Byte) (length : Nat) : State :=
  let body := bytes.take (length + 2)
  let crc := BitVec.ofNat 16 (beNat (bytes.drop (length + 2)))
  if s.lnk.replyOwed then s.raise .linkLate
  else if crc16 body ≠ crc then s.raise .linkCrc
  else s.takeRequest (body.getD 2 0) (body.getD 3 0) (requestOf (body.getD 3 0) (body.drop 4))

/-- The receiver hunts; nothing is held (R161). What it notes of a byte in reception is not touched. -/
def Lnk.hunt (l : Lnk) : Lnk :=
  { l with rx := .hunting, bytes := [], frameLength := none, gap := 0 }

/-- The receiver collects with these bytes held and this frame length, the gap count loaded (R161, R162). -/
def Lnk.collect (l : Lnk) (bytes : List Byte) (frameLength : Option Nat) : Lnk :=
  { l with rx := .collecting, bytes, frameLength, gap := Config.hostGap }

/-- A frame is discarded for its form: LINK_FRAMING is counted and the receiver hunts (R161, R162). -/
def State.discardFrame (s : State) : State := ({ s with lnk := s.lnk.hunt }).raise .linkFraming

/-- The frame length once both its bytes are held: the second byte kept sets it (R161). -/
def lengthAfter (held : List Byte) (frameLength : Option Nat) : Option Nat :=
  if held.length = 2 then some (beNat held) else frameLength

/-- The receiver, COLLECTING, keeps a good byte; `held` are the bytes held with it (R161). -/
def State.keepByte (s : State) (held : List Byte) : State :=
  match lengthAfter held s.lnk.frameLength with
  | none => { s with lnk := s.lnk.collect held none }
  | some n =>
    if n < 2 ∨ 302 < n then s.discardFrame
    else if held.length < n + 4 then { s with lnk := s.lnk.collect held (some n) }
    else ({ s with lnk := s.lnk.hunt }).takeFrame held n

/-- The receiver takes a byte on HRX (R161); `good` is a high stop bit. -/
def State.hostTake (s : State) (b : Byte) (good : Bool) : State :=
  match s.lnk.rx with
  | .off => s
  | .hunting => if good && decide (b = 0xB4) then { s with lnk := s.lnk.collect [] none } else s
  | .collecting => if good then s.keepByte (s.lnk.bytes ++ [b]) else s.discardFrame

/-- LNK notes what is in reception on HRX (R162, R169); that a receiver that is OFF notes nothing is the model's choice (log 20). -/
def State.noteLnk (s : State) (r : Reception) : State :=
  if s.lnk.rx = .off then s else { s with lnk := { s.lnk with reception := r } }

/-- The end of a byte on HRX: the byte is taken (R161), unless it was in reception when the receiver restarted at a new rate
(R169). -/
def State.hostByte (s : State) (b : Byte) (good : Bool) : State :=
  if s.lnk.reception = .dropped then s.noteLnk .idle else (s.noteLnk .idle).hostTake b good

/-- The receiver takes what the line brings (R161, R162); a start bit has no stop bit. -/
def State.hostLine (s : State) (good : Bool) : LineEvent → State
  | .startBit => s.noteLnk .begun
  | .byte b => s.hostByte b good

/-- An output frame lowers the gap count: in COLLECTING, while no start bit has begun (R162). -/
def Lnk.gapCounts (l : Lnk) : Bool := decide (l.rx = .collecting) && decide (l.reception = .idle)

/-- The gap count reaches 0 with the coming output frame (R162). -/
def Lnk.gapEndsNext (l : Lnk) : Bool := l.gapCounts && decide (l.gap ≤ 1)

/-- LNK takes an output frame for its gap count (R162). -/
def State.hostGapFrame (s : State) : State :=
  if s.lnk.gapCounts then
    if s.lnk.gap ≤ 1 then s.discardFrame else { s with lnk := { s.lnk with gap := s.lnk.gap - 1 } }
  else s

/-! ### The end of a reply (R165, R169, R170) -/

/-- LNK takes a new link rate (R169): if it differs from the old, a frame in COLLECTING is discarded uncounted, and the next
start bit is taken at the new rate, so a byte in reception is dropped. -/
def Lnk.takeRate (l : Lnk) (r : LinkRate) : Lnk :=
  if r = l.rate then l else { l.hunt with rate := r, reception := l.reception.drop }

/-- The last byte of the reply leaves HTX: no reply is owed, and what waited for it takes effect (R165, R169, R170). -/
def State.replyEnds (s : State) : State :=
  let t := { s with lnk := { s.lnk with replyOwed := false, reply := none, after := .nothing } }
  match s.lnk.after with
  | .nothing => t
  | .newRate r => { t with lnk := t.lnk.takeRate r }
  | .coldReset => t.coldReset

/-- HOST_BYTE_RECEIVED (R161, R162). -/
def execHostByteReceived (event : LineEvent) (good : Bool) (s : State) : Result := .next (s.hostLine good event)

/-- HOST_FRAME_COMPLETE (R161, R164): the good byte that completes the frame (log 2). -/
def execHostFrameComplete (last : Byte) (s : State) : Result := .next (s.hostByte last true)

/-- REPLY_SENT (R165, R169, R170); with no reply being sent there is nothing to leave HTX. -/
def execReplySent (s : State) : Result := .next (if s.lnk.replyOwed then s.replyEnds else s)

end Sys2Proof.Machine
end

