-- ==== Sys2Proof/Machine/Time.lean ====
section
/-! DEFINITION. Time: the output frame, the millisecond tick, and the commands that take one block's share of the coming
frame or tick ahead of the rest (R137, R138, log 3, log 4). -/

namespace Sys2Proof.Machine

/-! ### The blocks' shares of a frame -/

/-- VCE works on to voice `v`: the voices that have not taken the coming frame yet, up to `v`, take it in ascending
number (R3). -/
def State.voiceTurn (last : Nat) (s : State) (v : Fin 16) : State :=
  if s.progress.voices ≤ v.val ∧ v.val ≤ last then s.voiceFrame v else s

/-- The voices up to number `last` take the coming frame (R3). -/
def State.voicesThrough (s : State) (last : Nat) : State :=
  allVoices.foldl (State.voiceTurn last) s

/-- LNK takes the frame for its gap count, unless it has (R162). -/
def State.hostGapShare (s : State) : State := if s.progress.hostGap then s else s.hostGapFrame

/-- TRG takes the frame for its gap count, unless it has (R101). -/
def State.trigGapShare (s : State) : State := if s.progress.trigGap then s else s.trigGapFrame

/-! ### The blocks' shares of a tick -/

/-- The millisecond count rises, unless it has; while NRST is held asserted it is held at 0 (R138). -/
def State.countShare (s : State) : State :=
  if s.progress.count || s.nrst then s else { s with out := { s.out with msCount := s.out.msCount + 1 } }

/-- The lanes up to number `last` that the coming tick still changes (R83, R91). -/
def State.tickTurns (s : State) (last : Nat) : List (Fin 4) :=
  allLanes.filter fun l => decide (s.progress.lanes ≤ l.val ∧ l.val ≤ last) && (s.lane l).takesTicks

/-- The lane that took the coming tick last, where a command of log 3 has had it taken ahead, runs on until it stands before the
next lane is taken (R83, log 6). -/
def State.settleTicked (s : State) : State :=
  match allLanes.find? fun l => decide (s.progress.lanes = l.val + 1) with
  | none => s
  | some l => State.settle laneFuel s l

/-- The lanes up to number `last` take the tick, L0 first (R83, R91). -/
def State.lanesThrough (s : State) (last : Nat) : State :=
  match s.tickTurns last with
  | [] => s
  | l :: rest => s.settleTicked.tickInTurn (l :: rest)

/-- TRG takes the tick, unless it has (R109). -/
def State.holdoffShare (s : State) : State := if s.progress.holdoffs then s else s.tickHoldoffs

/-- STO takes the tick, unless it has (R128). -/
def State.storeShare (s : State) : State := if s.progress.store then s else s.tickStore

/-- The tick at every block that has not taken it: the count first, then LNC, TRG and STO (R137, R138). -/
def State.tickRest (s : State) : State := ((s.countShare.lanesThrough 3).holdoffShare).storeShare

/-- The coming frame is a millisecond tick (R137). -/
def State.tickComes (s : State) : Bool := decide (Config.framesPerTick ≤ s.out.frameSub + 1)

/-- The frame sub-count moves on, with the tick where it is due (R137); the next frame begins untaken. -/
def State.endFrame (s : State) : State :=
  let t := if s.tickComes then s.tickRest else s
  { t with
    out := { t.out with frameSub := if s.tickComes then 0 else s.out.frameSub + 1 }
    progress := Progress.start }

/-- An output frame (R137): the voices, the mix, the receivers' gaps, then the tick (log 4). -/
def State.frame (s : State) : State :=
  ((((s.voicesThrough 15).mixFrame).hostGapShare).trigGapShare).endFrame

/-! ### One event of the coming frame or tick (log 3) -/

/-- A voice takes the coming frame, and the voices before it (R3). -/
def State.voiceAhead (s : State) (v : Fin 16) : State :=
  { s.voicesThrough v.val with progress := { s.progress with voices := v.val + 1 } }

/-- The cut of a voice completes in the coming frame (R12). -/
def State.cutAhead (s : State) (v : Fin 16) : State :=
  if s.power && decide (s.progress.voices ≤ v.val) && s.cutEndsNext v then s.voiceAhead v else s

/-- The ramp of a voice has a move instant in the coming frame (R28). -/
def State.rampAhead (s : State) (v : Fin 16) : State :=
  if s.power && decide (s.progress.voices ≤ v.val) && s.rampMovesNext v then s.voiceAhead v else s

/-- The mute ramp ends in the coming frame (R142); where that brings MUTED, the pins are blank from here on (R146). An OUTPUT
SET taken after it and before that FRAME has its masters, mode and dead zone act in that FRAME, and its first mute step in the
frame after (log 26). -/
def State.muteAhead (s : State) : State :=
  if s.power && !s.progress.mute && s.out.muteEndsNext then
    { s with out := s.out.stepMute, progress := { s.progress with mute := true } }
  else s

/-- The host receiver's gap count reaches 0 in the coming frame (R162). -/
def State.hostGapAhead (s : State) : State :=
  if s.power && !s.progress.hostGap && s.lnk.gapEndsNext then
    { s.hostGapFrame with progress := { s.progress with hostGap := true } }
  else s

/-- The trigger receiver's gap count reaches 0 in the coming frame (R101). -/
def State.trigGapAhead (s : State) : State :=
  if s.power && !s.progress.trigGap && s.trg.gapEndsNext then
    { s.trigGapFrame with progress := { s.progress with trigGap := true } }
  else s

/-- Every block has taken the tick. -/
def Progress.ticked (p : Progress) : Progress := { p with count := true, lanes := 4, holdoffs := true, store := true }

/-- The millisecond tick of the coming frame (R138). -/
def State.tickAhead (s : State) : State :=
  if s.power && s.tickComes then { s.tickRest with progress := s.progress.ticked } else s

/-- A lane takes the coming tick, the count and the lanes before it first (R83, R138). -/
def State.laneAhead (s : State) (l : Fin 4) : State :=
  { s.countShare.lanesThrough l.val with progress := { s.progress with count := true, lanes := l.val + 1 } }

/-- A TIME wait ends at the coming tick (R83). -/
def State.waitAhead (s : State) (l : Fin 4) : State :=
  if s.power && s.tickComes && decide (s.progress.lanes ≤ l.val) && (s.lane l).waitEndsNext then s.laneAhead l else s

/-- A held notice expires at the coming tick (R91). -/
def State.noticeAhead (s : State) (l : Fin 4) : State :=
  if s.power && s.tickComes && decide (s.progress.lanes ≤ l.val) && (s.lane l).noticeEndsNext then s.laneAhead l else s

/-- A binding's holdoff left reaches 0 at the coming tick (R109): TRG takes the tick. -/
def State.holdoffAhead (s : State) (b : Fin 32) : State :=
  if s.power && s.tickComes && !s.progress.holdoffs && decide ((s.binding b).holdoffLeft = 1) then
    { s.countShare.tickHoldoffs with progress := { s.progress with count := true, holdoffs := true } }
  else s

/-- The store step in progress runs out of time at the coming tick (R128): STO takes the tick. -/
def State.stepAhead (s : State) : State :=
  if s.power && s.tickComes && !s.progress.store && s.stepEndsNext then
    { s.countShare.tickStore with progress := { s.progress with count := true, store := true } }
  else s

/-! ### The commands -/

/-- FRAME (R137); a part without power makes no frame. -/
def execFrame (s : State) : Result := .next (if s.power then s.frame else s)

/-- CUT_COMPLETE (R12). -/
def execCutComplete (v : Fin 16) (s : State) : Result := .next (s.cutAhead v)

/-- RAMP_MOVE_INSTANT (R28 to R31). -/
def execRampMoveInstant (v : Fin 16) (s : State) : Result := .next (s.rampAhead v)

/-- MUTE_RAMP_END (R142). -/
def execMuteRampEnd (s : State) : Result := .next s.muteAhead

/-- HOST_GAP_TIMEOUT (R162). -/
def execHostGapTimeout (s : State) : Result := .next s.hostGapAhead

/-- TRIG_GAP_TIMEOUT (R101). -/
def execTrigGapTimeout (s : State) : Result := .next s.trigGapAhead

/-- MS_TICK (R138). -/
def execMsTick (s : State) : Result := .next s.tickAhead

/-- WAIT_TIME_EXPIRY (R83). -/
def execWaitTimeExpiry (l : Fin 4) (s : State) : Result := .next (s.waitAhead l)

/-- HELD_NOTICE_EXPIRY (R91). -/
def execHeldNoticeExpiry (l : Fin 4) (s : State) : Result := .next (s.noticeAhead l)

/-- HOLDOFF_EXPIRY (R109). -/
def execHoldoffExpiry (b : Fin 32) (s : State) : Result := .next (s.holdoffAhead b)

/-- STEP_TIMEOUT (R128). -/
def execStepTimeout (s : State) : Result := .next s.stepAhead

end Sys2Proof.Machine
end

