-- ==== Sys2Proof/Machine/Dispatch.lean ====
section
/-! DEFINITION. One arm per command. -/

namespace Sys2Proof.Machine

/-- A command's effect on everything but the queue. -/
def exec (i : Instr) (s : State) : Host.Outcome State Fault Refusal :=
  match i with
  | .identify tag => Sys2Proof.Machine.execIdentify tag s
  | .resetWarm tag => Sys2Proof.Machine.execResetWarm tag s
  | .resetCold tag => Sys2Proof.Machine.execResetCold tag s
  | .linkSet tag rate => Sys2Proof.Machine.execLinkSet tag rate s
  | .clipDefine tag record => Sys2Proof.Machine.execClipDefine tag record s
  | .clipDelete tag clip => Sys2Proof.Machine.execClipDelete tag clip s
  | .clipRead tag clip => Sys2Proof.Machine.execClipRead tag clip s
  | .storeRead tag addr count => Sys2Proof.Machine.execStoreRead tag addr count s
  | .storeProgram tag addr data => Sys2Proof.Machine.execStoreProgram tag addr data s
  | .storeErase tag sector => Sys2Proof.Machine.execStoreErase tag sector s
  | .storeStatus tag => Sys2Proof.Machine.execStoreStatus tag s
  | .setupCommit tag => Sys2Proof.Machine.execSetupCommit tag s
  | .cueWrite tag slot block => Sys2Proof.Machine.execCueWrite tag slot block s
  | .cueClear tag first last => Sys2Proof.Machine.execCueClear tag first last s
  | .cueRead tag first count => Sys2Proof.Machine.execCueRead tag first count s
  | .laneStart tag lane slot clear => Sys2Proof.Machine.execLaneStart tag lane slot clear s
  | .lanePause tag lane => Sys2Proof.Machine.execLanePause tag lane s
  | .laneResume tag lane => Sys2Proof.Machine.execLaneResume tag lane s
  | .laneAbort tag lane voices => Sys2Proof.Machine.execLaneAbort tag lane voices s
  | .laneStatus tag lane => Sys2Proof.Machine.execLaneStatus tag lane s
  | .autostartSet tag lane enabled slot => Sys2Proof.Machine.execAutostartSet tag lane enabled slot s
  | .voicePlay tag order => Sys2Proof.Machine.execVoicePlay tag order s
  | .voiceRamp tag voice generation target rate scale mode notify => Sys2Proof.Machine.execVoiceRamp tag voice generation target rate scale mode notify s
  | .voiceRelease tag voice generation => Sys2Proof.Machine.execVoiceRelease tag voice generation s
  | .voiceStop tag voice generation => Sys2Proof.Machine.execVoiceStop tag voice generation s
  | .voiceHold tag voice generation => Sys2Proof.Machine.execVoiceHold tag voice generation s
  | .voiceContinue tag voice generation => Sys2Proof.Machine.execVoiceContinue tag voice generation s
  | .voiceStatus tag voice => Sys2Proof.Machine.execVoiceStatus tag voice s
  | .filterSet tag count codes => Sys2Proof.Machine.execFilterSet tag count codes s
  | .bindSet tag record => Sys2Proof.Machine.execBindSet tag record s
  | .bindClear tag binding => Sys2Proof.Machine.execBindClear tag binding s
  | .bindRead tag binding => Sys2Proof.Machine.execBindRead tag binding s
  | .triggerSet tag rate report => Sys2Proof.Machine.execTriggerSet tag rate report s
  | .outputSet tag mode left right mute deadZone => Sys2Proof.Machine.execOutputSet tag mode left right mute deadZone s
  | .eventRead tag count => Sys2Proof.Machine.execEventRead tag count s
  | .tallyRead tag choice => Sys2Proof.Machine.execTallyRead tag choice s
  | .hostFrameComplete last => Sys2Proof.Machine.execHostFrameComplete last s
  | .hostGapTimeout => Sys2Proof.Machine.execHostGapTimeout s
  | .replySent => Sys2Proof.Machine.execReplySent s
  | .nrstAssert => Sys2Proof.Machine.execNrstAssert s
  | .nrstRelease => Sys2Proof.Machine.execNrstRelease s
  | .powerUp => Sys2Proof.Machine.execPowerUp s
  | .setupLoad => Sys2Proof.Machine.execSetupLoad s
  | .autostartEntry => Sys2Proof.Machine.execAutostartEntry s
  | .triggerFrameComplete last => Sys2Proof.Machine.execTriggerFrameComplete last s
  | .trigGapTimeout => Sys2Proof.Machine.execTrigGapTimeout s
  | .frame => Sys2Proof.Machine.execFrame s
  | .cutComplete voice => Sys2Proof.Machine.execCutComplete voice s
  | .rampMoveInstant voice => Sys2Proof.Machine.execRampMoveInstant voice s
  | .muteRampEnd => Sys2Proof.Machine.execMuteRampEnd s
  | .msTick => Sys2Proof.Machine.execMsTick s
  | .waitTimeExpiry lane => Sys2Proof.Machine.execWaitTimeExpiry lane s
  | .heldNoticeExpiry lane => Sys2Proof.Machine.execHeldNoticeExpiry lane s
  | .holdoffExpiry binding => Sys2Proof.Machine.execHoldoffExpiry binding s
  | .stepTimeout => Sys2Proof.Machine.execStepTimeout s
  | .storeStepDone => Sys2Proof.Machine.execStoreStepDone s
  | .handleNotLive => Sys2Proof.Machine.execHandleNotLive s
  | .retryRound => Sys2Proof.Machine.execRetryRound s
  | .hostByteReceived event good => Sys2Proof.Machine.execHostByteReceived event good s
  | .triggerByteReceived event good => Sys2Proof.Machine.execTriggerByteReceived event good s
  | .powerLoss => Sys2Proof.Machine.execPowerLoss s

end Sys2Proof.Machine
end

