-- ==== Sys2Proof/Machine/Flags.lean ====
section
/-! DEFINITION. The part's output signals, computed from the state: ATTN and the PWM pins. -/

namespace Sys2Proof.Machine

/-- ATTN is asserted while the event queue holds a record (R153). -/
def State.attnAsserted (s : State) : Bool := !s.evq.queue.isEmpty

/-- The level of the ATTN pin, which is active low (R153). -/
def State.attnHigh (s : State) : Bool := !s.attnAsserted

/-- OUTx+ is high in a count of a carrier period for duty `d` and dead zone `z` (R145). -/
def plusHigh (d z count : Nat) : Bool := decide (z ≤ count) && decide (count < d)

/-- OUTx− is high in a count 0..255 of a carrier period for duty `d` and dead zone `z` (R145). -/
def minusHigh (d z count : Nat) : Bool := decide (d + z ≤ count) && decide (count ≤ 255)

/-- The four pins OUTL+, OUTL−, OUTR+, OUTR− in a count of the carrier periods of the last frame (R145, R146). -/
def FrameOut.pins (f : FrameOut) (count : Nat) : Bool × Bool × Bool × Bool :=
  if f.blank then (false, false, false, false)
  else (plusHigh f.dutyLeft f.zone count, minusHigh f.dutyLeft f.zone count,
        plusHigh f.dutyRight f.zone count, minusHigh f.dutyRight f.zone count)

end Sys2Proof.Machine
end

