-- ==== Sys2Proof/WellFormed.lean ====
section
/-! DEFINITION. Which command terms a frame of the host line can spell: a payload holds at most 300 bytes (R173). Every
other operand's type already holds exactly the values its bytes can carry. -/

namespace Sys2Proof

/-- The greatest payload of a frame (R173: the length is at most 302 and counts the tag and the type). -/
def maxPayload : Nat := 300

/-- A command whose payload, where it carries a list, fits a frame. -/
def Instr.wellFormed : Instr → Bool
  | .storeProgram _ _ data => 3 + data.length ≤ maxPayload
  | .cueWrite _ _ block => 1 + block.length ≤ maxPayload
  | .filterSet _ _ codes => 1 + 4 * codes.length ≤ maxPayload
  | .identify _ | .resetWarm _ | .resetCold _ | .linkSet _ _ | .clipDefine _ _ | .clipDelete _ _ | .clipRead _ _
  | .storeRead _ _ _ | .storeErase _ _ | .storeStatus _ | .setupCommit _ | .cueClear _ _ _ | .cueRead _ _ _
  | .laneStart _ _ _ _ | .lanePause _ _ | .laneResume _ _ | .laneAbort _ _ _ | .laneStatus _ _
  | .autostartSet _ _ _ _ | .voicePlay _ _ | .voiceRamp _ _ _ _ _ _ _ _ | .voiceRelease _ _ _ | .voiceStop _ _ _
  | .voiceHold _ _ _ | .voiceContinue _ _ _ | .voiceStatus _ _ | .bindSet _ _ | .bindClear _ _ | .bindRead _ _
  | .triggerSet _ _ _ | .outputSet _ _ _ _ _ _ | .eventRead _ _ | .tallyRead _ _ | .hostFrameComplete _
  | .hostGapTimeout | .replySent | .nrstAssert | .nrstRelease | .powerUp | .setupLoad | .autostartEntry
  | .triggerFrameComplete _ | .trigGapTimeout | .frame | .cutComplete _ | .rampMoveInstant _ | .muteRampEnd | .msTick
  | .waitTimeExpiry _ | .heldNoticeExpiry _ | .holdoffExpiry _ | .stepTimeout | .storeStepDone | .handleNotLive
  | .retryRound | .hostByteReceived _ _ | .triggerByteReceived _ _ | .powerLoss => true

end Sys2Proof
end

