-- ==== Sys2Proof/Safety.lean ====
section
/-! DEFINITION. The laws that the spec says hold in every state of the part, and the words statements are made in. -/

namespace Sys2Proof.Machine

/-! ### Words -/

/-- A request frame that completes now is taken as a request: the receiver is on and no reply is owed (R161, R164). -/
abbrev State.takesRequests (s : State) : Prop := s.lnk.rx ≠ .off ∧ s.lnk.replyOwed = false

/-- The state with a reply owed and this reply leaving HTX (R164, R165). -/
def State.replying (s : State) (tag type : Byte) (status : Status) (data : List Byte) : State :=
  { s with lnk := { s.lnk with replyOwed := true, reply := some ⟨tag, type, status, data⟩ } }

/-- The state with a tally one higher, at most 65,535 (R156). -/
def State.counted (s : State) (i : Fin 11) : State :=
  { s with evq := { s.evq with tallies := s.evq.tallies.set i (min 65535 (s.evq.tallies.get i + 1)) } }

/-- The tag and the type of the host request that a command is; none for the other commands (R174). -/
def requestHead : Instr → Option (Byte × Byte)
  | .identify tag => some (tag, 0x01)
  | .resetWarm tag => some (tag, 0x02)
  | .resetCold tag => some (tag, 0x02)
  | .linkSet tag _ => some (tag, 0x03)
  | .clipDefine tag _ => some (tag, 0x10)
  | .clipDelete tag _ => some (tag, 0x11)
  | .clipRead tag _ => some (tag, 0x12)
  | .storeRead tag _ _ => some (tag, 0x18)
  | .storeProgram tag _ _ => some (tag, 0x19)
  | .storeErase tag _ => some (tag, 0x1A)
  | .storeStatus tag => some (tag, 0x1B)
  | .setupCommit tag => some (tag, 0x1C)
  | .cueWrite tag _ _ => some (tag, 0x20)
  | .cueClear tag _ _ => some (tag, 0x21)
  | .cueRead tag _ _ => some (tag, 0x22)
  | .laneStart tag _ _ _ => some (tag, 0x28)
  | .lanePause tag _ => some (tag, 0x29)
  | .laneResume tag _ => some (tag, 0x2A)
  | .laneAbort tag _ _ => some (tag, 0x2B)
  | .laneStatus tag _ => some (tag, 0x2C)
  | .autostartSet tag _ _ _ => some (tag, 0x2D)
  | .voicePlay tag _ => some (tag, 0x30)
  | .voiceRamp tag _ _ _ _ _ _ _ => some (tag, 0x31)
  | .voiceRelease tag _ _ => some (tag, 0x32)
  | .voiceStop tag _ _ => some (tag, 0x33)
  | .voiceHold tag _ _ => some (tag, 0x34)
  | .voiceContinue tag _ _ => some (tag, 0x35)
  | .voiceStatus tag _ => some (tag, 0x36)
  | .filterSet tag _ _ => some (tag, 0x38)
  | .bindSet tag _ => some (tag, 0x39)
  | .bindClear tag _ => some (tag, 0x3A)
  | .bindRead tag _ => some (tag, 0x3B)
  | .triggerSet tag _ _ => some (tag, 0x3C)
  | .outputSet tag _ _ _ _ _ => some (tag, 0x40)
  | .eventRead tag _ => some (tag, 0x48)
  | .tallyRead tag _ => some (tag, 0x49)
  | _ => none

/-- The thirty-five request types (R174). -/
def requestTypes : List Nat :=
  [0x01, 0x02, 0x03, 0x10, 0x11, 0x12, 0x18, 0x19, 0x1A, 0x1B, 0x1C, 0x20, 0x21, 0x22, 0x28, 0x29, 0x2A, 0x2B, 0x2C, 0x2D,
   0x30, 0x31, 0x32, 0x33, 0x34, 0x35, 0x36, 0x38, 0x39, 0x3A, 0x3B, 0x3C, 0x40, 0x48, 0x49]

/-- A three-byte field, most significant byte first (R172). -/
def addrBytes (a : Addr) : List Byte := [a.extractLsb' 16 8, a.extractLsb' 8 8, a.extractLsb' 0 8]

/-- A two-byte field, most significant byte first (R172). -/
def halfBytes (h : Half) : List Byte := [h.extractLsb' 8 8, h.extractLsb' 0 8]

/-- A trigger code, most significant byte first (R172). -/
def codeBytes (c : Code) : List Byte :=
  [c.extractLsb' 24 8, c.extractLsb' 16 8, c.extractLsb' 8 8, c.extractLsb' 0 8]

/-- The start order as the payload of VOICE PLAY (R175). -/
def orderPayload (w : OrderWire) : List Byte :=
  [w.clip, w.priority, w.group] ++ halfBytes w.step ++ halfBytes w.level
    ++ [w.pan, w.loopCount, w.releaseRate, w.releaseScale, w.flags] ++ halfBytes w.rampTarget
    ++ [w.rampRate, w.rampScale, w.rampMode, w.rampNotify]

/-- The clip record as the payload of CLIP DEFINE (R175). -/
def clipPayload (w : ClipWire) : List Byte :=
  [w.clip, w.format] ++ addrBytes w.base ++ addrBytes w.count ++ [w.loopMode] ++ addrBytes w.loopStart
    ++ addrBytes w.loopEnd ++ halfBytes w.step ++ [w.releaseRate, w.releaseScale]

/-- The binding record as the payload of BIND SET (R176). -/
def bindingPayload (w : BindingWire) : List Byte :=
  [w.binding, w.enabled] ++ codeBytes w.code ++ [w.lane, w.entry, w.clear, w.policy, w.holdoff]

/-- The payload of the host request that a command is (R174 to R176). -/
def requestPayload : Instr → List Byte
  | .resetWarm _ => [0]
  | .resetCold _ => [1]
  | .linkSet _ rate => [rate]
  | .clipDefine _ w => clipPayload w
  | .clipDelete _ clip => [clip]
  | .clipRead _ clip => [clip]
  | .storeRead _ addr count => addrBytes addr ++ halfBytes count
  | .storeProgram _ addr data => addrBytes addr ++ data
  | .storeErase _ sector => [sector]
  | .cueWrite _ slot block => slot :: block
  | .cueClear _ first last => [first, last]
  | .cueRead _ first count => [first, count]
  | .laneStart _ lane slot clear => [lane, slot, clear]
  | .lanePause _ lane => [lane]
  | .laneResume _ lane => [lane]
  | .laneAbort _ lane voices => [lane, voices]
  | .laneStatus _ lane => [lane]
  | .autostartSet _ lane enabled slot => [lane, enabled, slot]
  | .voicePlay _ w => orderPayload w
  | .voiceRamp _ voice generation target rate scale mode notify =>
    [voice, generation] ++ halfBytes target ++ [rate, scale, mode, notify]
  | .voiceRelease _ voice generation => [voice, generation]
  | .voiceStop _ voice generation => [voice, generation]
  | .voiceHold _ voice generation => [voice, generation]
  | .voiceContinue _ voice generation => [voice, generation]
  | .voiceStatus _ voice => [voice]
  | .filterSet _ count codes => count :: codes.flatMap codeBytes
  | .bindSet _ w => bindingPayload w
  | .bindClear _ binding => [binding]
  | .bindRead _ binding => [binding]
  | .triggerSet _ rate report => [rate, report]
  | .outputSet _ mode left right mute deadZone => mode :: halfBytes left ++ halfBytes right ++ [mute, deadZone]
  | .eventRead _ count => [count]
  | .tallyRead _ choice => [choice]
  | _ => []

/-- Some commands one after another. -/
def execAll : List Instr → State → Result
  | [], s => .next s
  | c :: cs, s => match exec c s with
    | .next t => execAll cs t
    | .fault r => .fault r
    | .refused r => .refused r

/-- The commands that bring the bytes of a request frame: good bytes, the last of which completes the frame. -/
def frameCommands (tag type : Byte) (payload : List Byte) : List Instr :=
  (frameBytes tag type payload).dropLast.map (fun b => Instr.hostByteReceived (.byte b) true)
    ++ ((frameBytes tag type payload).getLast?.map Instr.hostFrameComplete).toList

/-- The operands of a start order that R39 allows, with the step and loop count in their bytes. -/
def StartOrder.inRange (o : StartOrder) : Bool :=
  decide (o.step ≤ 65535) && decide (o.level ≤ 4095) && decide (o.loopCount ≤ 255)
    && (match o.release with
        | none => true
        | some k => decide (1 ≤ k.rate) && decide (k.rate ≤ 255))

/-- `t` is `s` with one more claim on clip `c`: the use counts of the clip and of the sectors it touches (R50). -/
def State.claimedMore (s t : State) (c : Fin 64) : Prop :=
  t = { s with clips := s.clips.set c { s.clip c with useCount := (s.clip c).useCount + 1 }, sectors := t.sectors }
  ∧ ∀ i : Fin 128, t.sectors.get i = if ∃ r, (s.clip c).record = some r ∧ r.touches i = true then
      { s.sectors.get i with useCount := (s.sectors.get i).useCount + 1 } else s.sectors.get i

/-- `t` is `s` with one claim on clip `c` released (R13 step 2, R19 step 2). -/
def State.claimedLess (s t : State) (c : Fin 64) : Prop :=
  t = { s with clips := s.clips.set c { s.clip c with useCount := (s.clip c).useCount - 1 }, sectors := t.sectors }
  ∧ ∀ i : Fin 128, t.sectors.get i = if ∃ r, (s.clip c).record = some r ∧ r.touches i = true then
      { s.sectors.get i with useCount := (s.sectors.get i).useCount - 1 } else s.sectors.get i

/-- The queue and tallies after the VOICE_END of a start on a voice, where it has note end (R13 step 1, R19 step 1). -/
def State.noted (s : State) (noteEnd : Bool) (v : Fin 16) (generation reason : Byte) (owner : Owner) : Evq :=
  if noteEnd then (s.post .voiceEnd v.val generation reason (eventValue owner.code 0 0 0)).evq else s.evq

/-- A voice in PLAYING, RELEASING or HELD, with its start (R2). -/
def Voice.stands (x : Voice) : Option Sounding :=
  match x.body with
  | .playing y => some y
  | .releasing y => some y
  | .held y _ => some y
  | _ => none

/-- No busy and no SUSPECT sector is touched by a clip (R42 checks 3 and 4). -/
def State.sectorsClear (s : State) (r : ClipRecord) : Prop :=
  ∀ i : Fin 128, r.touches i = true → (s.sectors.get i).busy = false ∧ (s.sectors.get i).suspect = false

/-- No start and no successor of an order's group stands, or the order has no group (R43). -/
def State.groupAlone (s : State) (o : StartOrder) : Prop :=
  o.group = 0 ∨ ∀ x : Fin 16, (∀ y, (s.voice x).stands = some y → y.group ≠ o.group)
    ∧ ∀ y c z, (s.voice x).body = .cutting y c (some z) → z.order.group ≠ o.group

/-- A lane's order fails with this status (R42, R47). -/
def State.orderFails (s : State) (o : StartOrder) : Status → Prop
  | .notDefined => (s.clip o.clip).record = none
  | .clipBusy => ∃ r, (s.clip o.clip).record = some r ∧ ∃ i : Fin 128, r.touches i = true ∧ (s.sectors.get i).busy = true
  | .suspect => ∃ r, (s.clip o.clip).record = some r
      ∧ (∀ i : Fin 128, r.touches i = true → (s.sectors.get i).busy = false)
      ∧ ∃ i : Fin 128, r.touches i = true ∧ (s.sectors.get i).suspect = true
  | .noVoice => (∃ r, (s.clip o.clip).record = some r ∧ s.sectorsClear r) ∧ s.groupAlone o
      ∧ ∀ v : Fin 16, (∃ y c z, (s.voice v).body = .cutting y c (some z))
          ∨ ∃ y, (s.voice v).stands = some y ∧ o.priority ≤ y.priority
  | _ => False

/-- One application of the loop rules (R8, R9) to a direction, a position in 1/4096 sample and the loops remaining; none
where the position stands. -/
def Sounding.crossing (x : Sounding) (l : Loop) : Direction × Int × Nat → Option (Direction × Int × Nat)
  | (.forward, p, k) =>
    if p < (l.finish + 1) * 4096 ∨ x.exit = true ∨ k = 1 then none
    else
      let k' := if 1 < k then k - 1 else k
      match x.loopMode with
      | .none => none
      | .forward => some (.forward, p - (l.finish - l.start + 1) * 4096, k')
      | .alternate => some (.backward, 2 * l.finish * 4096 - p, k')
  | (.backward, p, k) =>
    if l.start * 4096 ≤ p ∨ x.loopMode ≠ .alternate then none else some (.forward, 2 * l.start * 4096 - p, k)

/-- The loop rules, applied again and again, come to this position after `n` crossings (R10). -/
def Sounding.comesTo (x : Sounding) (l : Loop) : Nat → Direction × Int × Nat → Direction × Int × Nat → Prop
  | 0, a, b => a = b ∧ x.crossing l a = none
  | n + 1, a, b => ∃ c, x.crossing l a = some c ∧ x.comesTo l n c b

/-- The ramp fields that R27 allows. -/
def RampSpec.inRange (r : RampSpec) : Bool :=
  decide (r.target ≤ 4095) && decide (1 ≤ r.rate) && decide (r.rate ≤ 255)

/-- The operands that R58 allows. -/
def CueOp.inRange : CueOp → Bool
  | .play p => p.order.inRange && p.order.ramp.isNone
  | .ramp _ r => r.inRange
  | .waitTime t => decide (1 ≤ t) && decide (t ≤ 65535)
  | .repeatTo _ n => decide (1 ≤ n) && decide (n ≤ 255)
  | _ => true

/-- The op is REPEAT (R60 check 2). -/
def CueOp.isRepeat : CueOp → Bool
  | .repeatTo _ _ => true
  | _ => false

/-- The blocks that R57 and R60 allow. -/
def CueBlock.inRange (b : CueBlock) : Bool :=
  b.op.inRange && decide (b.quiet ≤ 31) && !(b.last && b.pause) && !(b.op.isRepeat && (b.last || b.pause))

/-! ### The laws -/

/-- The bounds of EVQ: 64 records, a lost counter of 255, tallies of 65,535 (R151, R152, R156). -/
def Evq.bounded (e : Evq) : Prop :=
  e.queue.length ≤ 64 ∧ e.lost ≤ 255 ∧ ∀ i : Fin 11, e.tallies.get i ≤ 65535

/-- The age list holds every voice that is not FREE exactly once, and no FREE voice (R52). -/
def State.ageLaw (s : State) : Prop :=
  s.alc.age.Nodup ∧ ∀ v : Fin 16, v ∈ s.alc.age ↔ (s.voice v).isFree = false

/-- Which fields of a lane are present in its state (R75, R88, R91, R94), and the bounds of its run budget (R74, R81). -/
def Lane.lawful (x : Lane) : Bool :=
  decide (x.budget ≤ 64) &&
  match x.state with
  | .idle =>
    x.slot.isNone && x.wait.isNone && x.rep.isNone && x.fault.isNone && x.pendingStart.isNone && !x.pauseRequested
      && decide (x.budget = 0)
  | .running => x.slot.isSome && x.wait.isNone && x.notice.isNone && x.fault.isNone && decide (x.budget ≤ 63)
  | .waiting => x.slot.isSome && x.wait.isSome && x.notice.isNone && x.fault.isNone && decide (x.budget = 0)
  | .starved => x.slot.isSome && x.wait.isNone && x.notice.isNone && x.fault.isNone && decide (x.budget = 0)
  | .paused =>
    x.slot.isSome && x.wait.isNone && x.fault.isNone && !x.pauseRequested && decide (x.budget = 0)
  | .faulted =>
    x.slot.isSome && x.wait.isNone && x.rep.isNone && x.notice.isNone && x.pendingStart.isNone && x.fault.isSome
      && !x.pauseRequested

/-- Every lane's fields are those of its state (R75). -/
def State.lanesLawful (s : State) : Prop := ∀ l : Fin 4, (s.lane l).lawful = true

/-- The filter table holds the marks of the filter list (R103). -/
def Trg.filterLaw (t : Trg) : Prop := t.filterTable = filterMarks t.filterList

/-- The busy sector is the one of the step in progress, which has its open mark; without a step no sector is busy (R118,
R128). -/
def State.busyLaw (s : State) : Prop :=
  ∀ i : Fin 128, ((s.sectors.get i).busy = true ↔ ∃ r, s.op = some r ∧ r.sector = i)
    ∧ ((s.sectors.get i).busy = true → (s.sectors.get i).openMark = true)

/-- The starts that a voice holds a claim for: the sounding one and the successor (R50), by their clips. -/
def Voice.claims (x : Voice) : List (Fin 64) :=
  match x.body with
  | .free => []
  | .playing y => [y.clip]
  | .releasing y => [y.clip]
  | .held y _ => [y.clip]
  | .cutting y _ none => [y.clip]
  | .cutting y _ (some z) => [y.clip, z.order.clip]

/-- Every claim that stands, by its clip (R50). -/
def State.claims (s : State) : List (Fin 64) := allVoices.flatMap fun v => (s.voice v).claims

/-- A clip's region touches a sector (R42); an EMPTY clip touches none. -/
def State.clipTouches (s : State) (c : Fin 64) (i : Fin 128) : Bool :=
  match (s.clip c).record with
  | none => false
  | some r => r.touches i

/-- The use counts are the counts of the claims that stand, and a clip in use is DEFINED (R120, R122). -/
def State.useLaw (s : State) : Prop :=
  (∀ c : Fin 64, (s.clip c).useCount = s.claims.count c)
  ∧ (∀ c : Fin 64, 0 < (s.clip c).useCount → (s.clip c).record.isSome = true)
  ∧ ∀ i : Fin 128, (s.sectors.get i).useCount = s.claims.countP fun c => s.clipTouches c i

/-- While the part has no power or has still to load its setup area, no voice sounds, no lane runs, no retry stands, no reply
is owed and both receivers are OFF (R22, R97, R115, R171). -/
def State.coldLaw (s : State) : Prop :=
  (s.power = false ∨ s.loadDue = true) →
    (∀ v : Fin 16, (s.voice v).isFree = true) ∧ (∀ l : Fin 4, (s.lane l).state = .idle ∧ (s.lane l).wait = none)
    ∧ s.alc.retry = none ∧ s.lnk.rx = .off ∧ s.lnk.replyOwed = false ∧ s.trg.rx = .off ∧ s.autostartDue = []

end Sys2Proof.Machine
end

