-- ==== Sys2Proof/Certificates/Slice0/Obligations.lean ====
section
/-! DEFINITION. The statements for the provers. -/

open Sys2Proof Sys2Proof.Machine

/-! ### The queue and the host link -/

/-- A step runs the command at the front of the queue on the state with the queue's rest. With no command waiting, a retry that
stands between its question and its answer is answered, and with no lane RUNNING either the block idles (what happens with no
command waiting is the model's choice, logs 6 and 7). -/
def Obligations.StepTakesTheFrontCommand : Prop :=
  (∀ (c : Instr) (rest : List Instr) (s : State), s.pending = c :: rest → step s = exec c { s with pending := rest })
  ∧ (∀ s : State, s.pending = [] →
      (s.alc.retry ≠ none → step s = exec .retryRound s)
      ∧ (s.alc.retry = none → (∀ l : Fin 4, (s.lane l).state ≠ .running) → step s = .next s))

/-- Every command has a next state and leaves the queue to the step (that the part has no behaviour in which it stops is read from
the whole of the spec: DEDUCED, log 21). -/
def Obligations.EveryCommandCompletes : Prop :=
  ∀ (c : Instr) (s : State), ∃ t, exec c s = .next t ∧ t.pending = s.pending

/-- A request row stands for a complete good frame (the model's choice, log 1, with the two effects it has on a link that takes
no request). A request taken is answered with its own tag and its type plus 0x80, and a reply is owed; one that completes while
a reply is owed is discarded and LINK_LATE is counted, and the frame being assembled on HRX is left as it is; one that comes
while the receiver is OFF is not received. -/
def Obligations.RequestByLinkState : Prop :=
  (∀ (c : Instr) (s : State) (tag type : Byte), requestHead c = some (tag, type) → s.takesRequests →
     ∃ t r, exec c s = .next t ∧ t.lnk.replyOwed = true ∧ t.lnk.reply = some r ∧ r.tag = tag ∧ r.type = type + 0x80)
  ∧ (∀ (c : Instr) (s : State), (requestHead c).isSome = true →
       (s.lnk.rx = .off → exec c s = .next s)
       ∧ (s.lnk.rx ≠ .off → s.lnk.replyOwed = true → exec c s = .next (s.counted 2)))

/-- A refused request changes nothing but the reply, and carries no data but a field index; a failed VOICE PLAY counts in
START_FAILS besides. -/
def Obligations.RefusedRequestChangesNothing : Prop :=
  ∀ (c : Instr) (s t : State) (r : Reply), (requestHead c).isSome = true → s.takesRequests → exec c s = .next t →
    t.lnk.reply = some r → r.status ≠ .ok → r.status ≠ .accepted →
    (if r.status = .badField then r.data.length = 1 else r.data = [])
    ∧ t = (if r.type = 0xB0 ∧ r.status ≠ .badField then s.counted 9 else s).replying
        r.tag r.type r.status r.data

/-- The bytes of a request frame, taken one by one from HUNTING, have the effect of the request's command (that a request row is
a complete good frame is the model's choice, log 1; that its last byte completes it is DEDUCED, log 2). -/
def Obligations.FrameBytesSpellTheirRequest : Prop :=
  ∀ (c : Instr) (tag type : Byte) (s : State), requestHead c = some (tag, type) → c.wellFormed = true →
    s.lnk.rx = .hunting → s.lnk.reception ≠ .dropped →
    execAll (frameCommands tag type (requestPayload c)) s
      = exec c { s with
          lnk := { s.lnk with rx := .hunting, bytes := [], frameLength := none, gap := 0, reception := .idle } }

/-- The two receivers by their state, for the start bits and the bytes on HRX and on TRX that complete no frame (R101, R162, and
the tables of R161 and R100). A byte that was in reception when its receiver restarted at a new rate is dropped at its end (R114,
R169), also where a frame row brings it. The model's choices: a start bit and the end of its byte as two events, and an end with no
start bit before it taken as a whole byte (log 23); a receiver that is OFF notes no start bit (log 20). -/
def Obligations.BytesByReceiverState : Prop :=
  (∀ (b : Byte) (good : Bool) (s : State),
     let run := exec (.hostByteReceived (.byte b) good) s
     let hunting : State := { s with
       lnk := { s.lnk with rx := .hunting, bytes := [], frameLength := none, gap := 0, reception := .idle } }
     let keeps (bytes : List Byte) (n : Option Nat) : State := { s with
       lnk := { s.lnk with rx := .collecting, bytes := bytes, frameLength := n, gap := 160, reception := .idle } }
     let notes (r : Reception) : State := { s with lnk := { s.lnk with reception := r } }
     (s.lnk.rx = .off → run = .next s ∧ exec (.hostByteReceived .startBit good) s = .next s)
     ∧ (s.lnk.rx ≠ .off → exec (.hostByteReceived .startBit good) s = .next (notes .begun)
         ∧ (s.lnk.reception = .dropped → run = .next (notes .idle) ∧ exec (.hostFrameComplete b) s = .next (notes .idle)))
     ∧ (s.lnk.reception ≠ .dropped →
         (s.lnk.rx = .hunting → b = 0xB4 → good = true → run = .next (keeps [] none))
         ∧ (s.lnk.rx = .hunting → (b ≠ 0xB4 ∨ good = false) → run = .next (notes .idle))
         ∧ (s.lnk.rx = .collecting → good = false → run = .next (hunting.counted 1))
         ∧ (s.lnk.rx = .collecting → good = true → s.lnk.bytes = [] → s.lnk.frameLength = none → run = .next (keeps [b] none))
         ∧ (∀ a : Byte, s.lnk.rx = .collecting → good = true → s.lnk.bytes = [a] →
             let n := a.toNat * 256 + b.toNat
             (2 ≤ n ∧ n ≤ 302 → run = .next (keeps [a, b] (some n)))
             ∧ (n < 2 ∨ 302 < n → run = .next (hunting.counted 1)))
         ∧ (∀ n : Nat, s.lnk.rx = .collecting → good = true → 2 ≤ s.lnk.bytes.length → s.lnk.frameLength = some n →
             2 ≤ n → n ≤ 302 → s.lnk.bytes.length + 1 < n + 4 → run = .next (keeps (s.lnk.bytes ++ [b]) (some n)))))
  ∧ (∀ (b : Byte) (good : Bool) (s : State),
       let run := exec (.triggerByteReceived (.byte b) good) s
       let hunting : State := { s with trg := { s.trg with rx := .hunting, bytes := [], gap := 0, reception := .idle } }
       let keeps (bytes : List Byte) : State := { s with
         trg := { s.trg with rx := .collecting, bytes := bytes, gap := 96, reception := .idle } }
       let notes (r : Reception) : State := { s with trg := { s.trg with reception := r } }
       (s.trg.rx = .off → run = .next s ∧ exec (.triggerByteReceived .startBit good) s = .next s)
       ∧ (s.trg.rx ≠ .off → exec (.triggerByteReceived .startBit good) s = .next (notes .begun)
           ∧ (s.trg.reception = .dropped →
               run = .next (notes .idle) ∧ exec (.triggerFrameComplete b) s = .next (notes .idle)))
       ∧ (s.trg.reception ≠ .dropped →
           (s.trg.rx = .hunting → b = 0xC3 → good = true → run = .next (keeps []))
           ∧ (s.trg.rx = .hunting → b ≠ 0xC3 ∨ good = false → run = .next (notes .idle))
           ∧ (s.trg.rx = .collecting → good = false → run = .next (hunting.counted 4))
           ∧ (s.trg.rx = .collecting → good = true → s.trg.bytes.length < 5 → run = .next (keeps (s.trg.bytes ++ [b])))))

/-- The byte that completes a frame: a frame with a bad CRC is discarded and LINK_CRC is counted, one that completes while
a reply is owed counts LINK_LATE, and one of a type that is no request type is answered BAD_TYPE. -/
def Obligations.CompletedFrameIsChecked : Prop :=
  ∀ (last : Byte) (n : Nat) (s : State), s.lnk.rx = .collecting → s.lnk.frameLength = some n → 2 ≤ n → n ≤ 302 →
    s.lnk.bytes.length = n + 3 → s.lnk.reception ≠ .dropped →
    let h : State := { s with
      lnk := { s.lnk with rx := .hunting, bytes := [], frameLength := none, gap := 0, reception := .idle } }
    let body := s.lnk.bytes.take (n + 2)
    let good := halfBytes (crc16 body) = s.lnk.bytes.drop (n + 2) ++ [last]
    (s.lnk.replyOwed = true → exec (.hostFrameComplete last) s = .next (h.counted 2))
    ∧ (s.lnk.replyOwed = false → ¬good → exec (.hostFrameComplete last) s = .next (h.counted 0))
    ∧ (s.lnk.replyOwed = false → good → (body.getD 3 0).toNat ∉ requestTypes → (body.getD 3 0).toNat < 0x80 →
        exec (.hostFrameComplete last) s = .next (h.replying (body.getD 2 0) (body.getD 3 0 + 0x80) .badType []))
    ∧ (s.lnk.replyOwed = false → good → 0x80 ≤ (body.getD 3 0).toNat →
        exec (.hostFrameComplete last) s = .next (h.replying (body.getD 2 0) 0xFF .badType []))

/-- IDENTIFY answers the identity and changes nothing. -/
def Obligations.IdentifyAnswersTheIdentity : Prop :=
  ∀ (tag : Byte) (s : State), s.takesRequests →
    exec (.identify tag) s
      = .next (s.replying tag 0x81 .ok [0x3A, 0x71, 0x0C, 0x16, 1, 16, 64, 1, 0, 4, 32, 64])

/-- LINK SET answers at the rate in use, and the new rate is taken when the reply has left HTX, a byte in
reception being dropped (R169: the receiver takes its next start bit at the new rate); the end of any other reply only
leaves no reply owed, and with no reply owed there is nothing to leave HTX (that last is DEDUCED, log 24). -/
def Obligations.LinkSetTakesTheRateAfterItsReply : Prop :=
  (∀ (tag rate : Byte) (s : State), s.takesRequests →
     (3 < rate.toNat → exec (.linkSet tag rate) s = .next (s.replying tag 0x83 .badField [0]))
     ∧ ∀ r : LinkRate, (rate = 0 ∧ r = .b19200) ∨ (rate = 1 ∧ r = .b57600) ∨ (rate = 2 ∧ r = .b115200)
         ∨ (rate = 3 ∧ r = .b230400) →
       ∃ t, exec (.linkSet tag rate) s = .next t
         ∧ t = { s with lnk := { s.lnk with
               replyOwed := true, reply := some ⟨tag, 0x83, .ok, []⟩, after := .newRate r } }
         ∧ exec .replySent t = .next { s with lnk :=
             if r = s.lnk.rate then { s.lnk with replyOwed := false, reply := none, after := .nothing }
             else { rate := r, rx := .hunting, bytes := [], frameLength := none, gap := 0
                    reception := if s.lnk.reception = .idle then .idle else .dropped
                    replyOwed := false, reply := none, after := .nothing } })
  ∧ (∀ s : State,
       (s.lnk.replyOwed = true → s.lnk.after = .nothing →
         exec .replySent s = .next { s with lnk := { s.lnk with replyOwed := false, reply := none } })
       ∧ (s.lnk.replyOwed = false → exec .replySent s = .next s))

/-! ### Resets, supply and loading -/

/-- What State.reset holds where the spec gives the values of a cold reset. -/
def Obligations.ResetState : Prop :=
  (∀ v : Fin 16, State.reset.voice v = ⟨0, .free⟩)
  ∧ State.reset.alc = ⟨[], false, none⟩
  ∧ (∀ l : Fin 4, State.reset.lane l
      = { state := .idle, slot := none, origin := none, handles := Table.const 4 none, rep := none, wait := none
          pauseRequested := false, budget := 0, notice := none, pendingStart := none, fault := none })
  ∧ State.reset.trg.rx = .off ∧ State.reset.trg.bytes = []
  ∧ (∀ b : Fin 32, (State.reset.binding b).holdoffLeft = 0)
  ∧ (∀ c : Fin 64, (State.reset.clip c).useCount = 0)
  ∧ (∀ i : Fin 128, (State.reset.sectors.get i).useCount = 0 ∧ (State.reset.sectors.get i).busy = false)
  ∧ State.reset.op = none
  ∧ State.reset.out.mode = .stereo ∧ State.reset.out.leftMaster = 4095 ∧ State.reset.out.rightMaster = 4095
  ∧ State.reset.out.deadZone = 4 ∧ State.reset.out.mute = .muted ∧ State.reset.out.mutePos = 0
  ∧ State.reset.out.msCount = 0 ∧ State.reset.out.frameSub = 0 ∧ State.reset.out.shown.blank = true
  ∧ State.reset.evq.queue = [] ∧ State.reset.evq.lost = 0 ∧ (∀ i : Fin 11, State.reset.evq.tallies.get i = 0)
  ∧ State.reset.attnHigh = true
  ∧ State.reset.lnk.rate = .b115200 ∧ State.reset.lnk.rx = .off ∧ State.reset.lnk.bytes = []
  ∧ State.reset.lnk.frameLength = none ∧ State.reset.lnk.replyOwed = false

/-- The warm reset: what it makes of every block, before its own reply is sent. That the autostart entries not yet taken are
dropped and that the contributions become 0 is the model's choice (log 19), and so is that a byte in reception stays noted
(log 20). -/
def Obligations.WarmResetAtEveryBlock : Prop :=
  ∀ (tag : Byte) (s : State), s.takesRequests →
    exec (.resetWarm tag) s = .next (
      { s with
        voices := s.voices.map fun (x : Voice) => ⟨x.generation, .free⟩
        alc := ⟨[], false, none⟩
        signals := []
        clips := s.clips.map fun (x : Clip) => { x with useCount := 0 }
        sectors := s.sectors.map fun (x : Sector) => { x with useCount := 0 }
        lanes := Table.const 4 { state := .idle, slot := none, origin := none, handles := Table.const 4 none, rep := none
                                 wait := none, pauseRequested := false, budget := 0, notice := none, pendingStart := none
                                 fault := none }
        trg := { s.trg with rx := .hunting, bytes := [], gap := 0
                            bindings := s.trg.bindings.map fun (b : Binding) => { b with holdoffLeft := 0 } }
        out := { s.out with contributions := Table.const 16 (0, 0) }
        evq := { s.evq with queue := [], lost := 0 }
        autostartDue := [] }.replying tag 0x82 .ok [])

/-- RESET COLD answers first; its reply's end, and the assertion of NRST on a part with power, are the cold reset: the
store, the sector states, the open marks and a step in progress are kept, and everything else is as after reset. Where State.reset
holds a value the spec does not give (the owners of the setup area's content before loading, log 10; the shown frame, log 22) the
clause is the model's choice; that the use counts clear at once while a step is waited for is DEDUCED (log 11); that NRST_RELEASE
only releases the pin, also where it was not asserted, is the model's choice (log 15). -/
def Obligations.ColdResetAtEveryBlock : Prop :=
  ∀ (tag : Byte) (s : State),
    let cold (n : Bool) : State :=
      { State.reset with
        sectors := s.sectors.map fun (x : Sector) => { x with useCount := 0 }
        mem := s.mem, op := s.op, coldWait := s.op.isSome, nrst := n, power := s.power, damage := s.damage
        openings := s.openings, pending := s.pending }
    (s.takesRequests →
      exec (.resetCold tag) s = .next { s with lnk := { s.lnk with
        replyOwed := true, reply := some ⟨tag, 0x82, .ok, []⟩, after := .coldReset } })
    ∧ (s.lnk.replyOwed = true → s.lnk.after = .coldReset → exec .replySent s = .next (cold s.nrst))
    ∧ (s.nrst = false → s.power = true → exec .nrstAssert s = .next (cold true))
    ∧ exec .nrstRelease s = .next { s with nrst := false }

/-- Supply lost and returned: the store and the state area remain, a step in progress leaves free values (log 8) in its sector or
page, and power-up makes each sector with an open mark SUSPECT. The model's choices: the values of the working state of a part
without power (log 16), the owners' values between POWER_UP and the end of loading (log 10), and that POWER_UP with supply present
has no effect and the level on NRST stands through a loss (log 15). -/
def Obligations.SupplyLostAndReturned : Prop :=
  ∀ s : State,
    (s.power = true → ∃ t, exec .powerLoss s = .next t ∧ t.power = false ∧ t.pending = s.pending ∧ t.nrst = s.nrst
      ∧ (∀ i : Fin 128, t.sectors.get i = { s.sectors.get i with useCount := 0, busy := false })
      ∧ (s.op = none → t.mem = s.mem)
      ∧ (∀ r, s.op = some r → r.page = none → ∀ a, ¬(r.sector.val * 4096 ≤ a ∧ a < r.sector.val * 4096 + 4096) →
          Memory.read t.mem a = Memory.read s.mem a)
      ∧ (∀ r p, s.op = some r → r.page = some p → ∀ a, ¬(p ≤ a ∧ a < p + 256) →
          Memory.read t.mem a = Memory.read s.mem a))
    ∧ (s.power = false → exec .powerUp s = .next
        { State.reset with
          sectors := s.sectors.map fun (x : Sector) => ⟨x.suspect || x.openMark, 0, false, false⟩
          mem := s.mem, nrst := s.nrst, damage := s.damage, openings := s.openings, pending := s.pending })
    ∧ (s.power = true → exec .powerUp s = .next s)

/-- Loading, as one command (the model's choice, log 19): a part whose section table is all 0xFF loads every section BLANK; else
each section is LOADED or CORRUPT by its place, length, CRC and fields. An owner takes the content of a LOADED section and else
the default; both receivers enter HUNTING, and SETUP_LOADED is posted with the statuses, 0 LOADED, 1 BLANK, 2 CORRUPT. Loading
waits for the end of a cold reset's wait and for NRST to be released, and needs supply (no effect without it is the model's
choice, log 16). -/
def Obligations.BlankSetupLoadsTheDefaults : Prop :=
  (∀ s : State, s.power = true → s.nrst = false → s.coldWait = false → s.loadDue = true →
     (∀ a, a < 24 → Memory.read s.mem a = 0xFF) →
     exec .setupLoad s = .next
       { s with
         clips := Table.const 64 ⟨none, 0⟩
         cues := Table.const 256 none
         trg := { rate := .b9600, report := .nothing, rx := .hunting, bytes := [], gap := 0, reception := s.trg.reception
                  filterList := []
                  filterTable := Table.const 64 false
                  bindings := Table.const 32 { enabled := false, code := 0, lane := 0, entry := 0, clear := false
                                               policy := .ignore, holdoff := 0, holdoffLeft := 0 } }
         out := { s.out with mode := .stereo, leftMaster := 4095, rightMaster := 4095, deadZone := 4
                             mute := muteRequest true s.out.mute }
         autostart := Table.const 4 none
         autostartDue := []
         loadDue := false
         lnk := { s.lnk with rx := .hunting, bytes := [], frameLength := none, gap := 0 }
         evq := (s.post .setupLoaded 0 0 0 0x555).evq })
  ∧ (∀ s : State, s.power = true → s.nrst = false → s.coldWait = false → s.loadDue = true →
     (∃ a, a < 24 ∧ Memory.read s.mem a ≠ 0xFF) →
     let m (a : Nat) : Byte := Memory.read s.mem a
     let bytes (a n : Nat) : List Byte := (List.range n).map fun k => m (a + k)
     let len (i : Nat) : Nat := (m (4 * i)).toNat * 256 + (m (4 * i + 1)).toNat
     let whole (i a : Nat) : Prop := halfBytes (crc16 (bytes a (len i))) = [m (4 * i + 2), m (4 * i + 3)]
     let bindings := 24 + len 0
     let filter := bindings + len 2
     let settings := filter + len 3
     let autostart := settings + len 4
     let okBindings : Prop := len 0 = 1216 ∧ len 2 = 320
     let okFilter : Prop := okBindings ∧ len 3 ≤ 129 ∧ len 3 = 1 + 4 * (m filter).toNat
     let okSettings : Prop := okFilter ∧ len 4 = 9
     let clipAt (i : Fin 64) (r : Option ClipRecord) : Prop :=
       let b := bytes (24 + 19 * i.val) 19
       if b.head? = some 0 then r = none else ∃ q, r = some q ∧ clipRecordOf (clipWireOf (b.drop 1)) = .ok q
     let cueAt (i : Fin 256) (c : Option CueBlock) : Prop :=
       let b := bytes (4096 + 16 * i.val) 16
       if b.head? = some 0 then c = none else ∃ q, c = some q ∧ cueBlockOf b = .ok q
     let bindingAt (i : Fin 32) (b : Binding) : Prop :=
       bindingOf (bindingWireOf (bytes (bindings + 10 * i.val) 10)) = .ok b
     let setting (i : Nat) : Byte := m (settings + i)
     let left := (setting 1).toNat * 256 + (setting 2).toNat
     let right := (setting 3).toNat * 256 + (setting 4).toNat
     let directoryLoads (f : Fin 64 → Option ClipRecord) : Prop := len 0 = 1216 ∧ whole 0 24 ∧ ∀ i, clipAt i (f i)
     let cuesLoad (f : Fin 256 → Option CueBlock) : Prop := len 1 = 4096 ∧ whole 1 4096 ∧ ∀ i, cueAt i (f i)
     let bindingsLoad (f : Fin 32 → Binding) : Prop := okBindings ∧ whole 2 bindings ∧ ∀ i, bindingAt i (f i)
     let filterLoads : Prop := okFilter ∧ whole 3 filter
     let settingsLoad : Prop := okSettings ∧ whole 4 settings ∧ (setting 0).toNat ≤ 1 ∧ left ≤ 4095 ∧ right ≤ 4095
       ∧ (setting 5).toNat ≤ 1 ∧ (setting 6).toNat ≤ 15 ∧ (setting 7).toNat ≤ 2 ∧ (setting 8).toNat ≤ 2
     let autostartLoads : Prop := okSettings ∧ len 5 = 8 ∧ whole 5 autostart
     ∃ (t : State) (q : Fin 6 → Nat), exec .setupLoad s = .next t
       ∧ ((∃ f, directoryLoads f) → q 0 = 0 ∧ directoryLoads fun i => (t.clip i).record)
       ∧ ((¬∃ f, directoryLoads f) → q 0 = 2 ∧ ∀ i, (t.clip i).record = none)
       ∧ (∀ i, (t.clip i).useCount = 0)
       ∧ ((∃ f, cuesLoad f) → q 1 = 0 ∧ cuesLoad t.cues.get)
       ∧ ((¬∃ f, cuesLoad f) → q 1 = 2 ∧ ∀ i, t.cues.get i = none)
       ∧ ((∃ f, bindingsLoad f) → q 2 = 0 ∧ bindingsLoad t.binding)
       ∧ ((¬∃ f, bindingsLoad f) → q 2 = 2 ∧ ∀ i, t.binding i
           = { enabled := false, code := 0, lane := 0, entry := 0, clear := false, policy := .ignore, holdoff := 0
               holdoffLeft := 0 })
       ∧ (filterLoads → q 3 = 0 ∧ t.trg.filterList.length = (m filter).toNat
           ∧ t.trg.filterList.flatMap codeBytes = bytes (filter + 1) (4 * (m filter).toNat))
       ∧ (¬filterLoads → q 3 = 2 ∧ t.trg.filterList = []) ∧ t.trg.filterLaw
       ∧ (settingsLoad → q 4 = 0 ∧ t.trg.rate.code = setting 7 ∧ t.trg.report.code = setting 8
           ∧ t.out = { s.out with
               mode := if setting 0 = 0 then .stereo else .mono, leftMaster := left, rightMaster := right
               mute := muteRequest (decide (setting 5 = 1)) s.out.mute, deadZone := (setting 6).toNat })
       ∧ (¬settingsLoad → q 4 = 2 ∧ t.trg.rate = .b9600 ∧ t.trg.report = .nothing
           ∧ t.out = { s.out with mode := .stereo, leftMaster := 4095, rightMaster := 4095, deadZone := 4
                                  mute := muteRequest true s.out.mute })
       ∧ (autostartLoads → q 5 = 0 ∧ ∀ l : Fin 4, t.autostart.get l
           = if m (autostart + 2 * l.val) = 0 then none else some (m (autostart + 2 * l.val + 1)).toFin)
       ∧ (¬autostartLoads → q 5 = 2 ∧ ∀ l : Fin 4, t.autostart.get l = none)
       ∧ t.trg.rx = .hunting ∧ t.trg.bytes = [] ∧ t.trg.gap = 0 ∧ t.trg.reception = s.trg.reception
       ∧ t = { s with
           clips := t.clips, cues := t.cues, trg := t.trg, out := t.out, autostart := t.autostart
           autostartDue := (List.finRange 4).filterMap fun l => (t.autostart.get l).map fun k => (l, k)
           loadDue := false
           lnk := { s.lnk with rx := .hunting, bytes := [], frameLength := none, gap := 0 }
           evq := (s.post .setupLoaded 0 0 0
             (BitVec.ofNat 32 (q 0 + 4 * q 1 + 16 * q 2 + 64 * q 3 + 256 * q 4 + 1024 * q 5))).evq })
  ∧ (∀ s : State, s.coldWait = true ∨ s.nrst = true ∨ s.loadDue = false ∨ s.power = false → exec .setupLoad s = .next s)

/-- A cue block that R57 and R60 allow comes back from its sixteen bytes. -/
def Obligations.CueBlockBytesReadBack : Prop :=
  ∀ b : CueBlock, b.inRange = true → cueBlockOf (cueBytes (some b)) = .ok b ∧ (cueBytes (some b)).length = 16

/-! ### The clip directory -/

/-- CLIP DEFINE: the field checks of R123 in their order, with the index of the first bad field answered; the owner's checks in
their order; and the record the clip then holds. -/
def Obligations.ClipDefineChecksAndRecords : Prop :=
  (∀ (tag : Byte) (w : ClipWire) (s : State), s.takesRequests →
     let n := w.count.toNat
     let last := if w.format = 2 then w.base.toNat + 2 * n - 1 else w.base.toNat + n - 1
     let bad : Option Nat :=
       if 63 < w.clip.toNat then some 0
       else if 2 < w.format.toNat then some 1
       else if w.base.toNat < 8192 ∨ 524287 < w.base.toNat ∨ (w.format = 2 ∧ w.base.toNat % 2 = 1) then some 2
       else if n < 2 ∨ 524287 < last then some 5
       else if 2 < w.loopMode.toNat then some 8
       else if w.loopMode ≠ 0 ∧ n < w.loopStart.toNat + 2 then some 9
       else if w.loopMode ≠ 0 ∧ (w.loopEnd.toNat ≤ w.loopStart.toNat ∨ n ≤ w.loopEnd.toNat) then some 12
       else if w.step = 0 then some 15
       else if w.releaseRate ≠ 0 ∧ 3 < w.releaseScale.toNat then some 18
       else none
     (∀ k, bad = some k →
       exec (.clipDefine tag w) s = .next (s.replying tag 0x90 .badField [BitVec.ofNat 8 k]))
     ∧ (bad = none → ∃ r, clipRecordOf w = .ok r ∧ r.format.code = w.format ∧ r.base = w.base.toNat ∧ r.count = n
         ∧ r.step = w.step.toNat
         ∧ (w.loopMode = 0 → r.loopMode = .none ∧ r.loop = none)
         ∧ (w.loopMode = 1 → r.loopMode = .forward ∧ r.loop = some ⟨w.loopStart.toNat, w.loopEnd.toNat⟩)
         ∧ (w.loopMode = 2 → r.loopMode = .alternate ∧ r.loop = some ⟨w.loopStart.toNat, w.loopEnd.toNat⟩)
         ∧ (w.releaseRate = 0 → r.release = none)
         ∧ (w.releaseRate ≠ 0 → ∃ k, r.release = some ⟨w.releaseRate.toNat, k⟩ ∧ k.code = w.releaseScale)))
  ∧ (∀ (tag : Byte) (w : ClipWire) (c : Fin 64) (r : ClipRecord) (s : State), s.takesRequests →
       w.clip.toNat = c.val → clipRecordOf w = .ok r →
       let suspect := ∃ i : Fin 128, r.touches i = true ∧ (s.sectors.get i).suspect = true
       (s.commitInFlight = true → exec (.clipDefine tag w) s = .next (s.replying tag 0x90 .busy []))
       ∧ (s.commitInFlight = false → 0 < (s.clip c).useCount →
           exec (.clipDefine tag w) s = .next (s.replying tag 0x90 .inUse []))
       ∧ (s.commitInFlight = false → (s.clip c).useCount = 0 → suspect →
           exec (.clipDefine tag w) s = .next (s.replying tag 0x90 .suspect []))
       ∧ (s.commitInFlight = false → (s.clip c).useCount = 0 → ¬suspect →
           exec (.clipDefine tag w) s
             = .next ({ s with clips := s.clips.set c ⟨some r, 0⟩ }.replying tag 0x90 .ok [])))

/-- CLIP DELETE: its checks in their order, and the EMPTY record. CLIP READ answers the use count and the record, and changes
nothing. -/
def Obligations.ClipDeleteAndClipRead : Prop :=
  (∀ (tag clip : Byte) (s : State), s.takesRequests →
     (63 < clip.toNat → exec (.clipDelete tag clip) s = .next (s.replying tag 0x91 .badField [0]))
     ∧ ∀ c : Fin 64, clip.toNat = c.val →
       (s.commitInFlight = true → exec (.clipDelete tag clip) s = .next (s.replying tag 0x91 .busy []))
       ∧ (s.commitInFlight = false → 0 < (s.clip c).useCount →
           exec (.clipDelete tag clip) s = .next (s.replying tag 0x91 .inUse []))
       ∧ (s.commitInFlight = false → (s.clip c).useCount = 0 →
           exec (.clipDelete tag clip) s
             = .next ({ s with clips := s.clips.set c ⟨none, 0⟩ }.replying tag 0x91 .ok [])))
  ∧ (∀ (tag clip : Byte) (s : State), s.takesRequests →
       (63 < clip.toNat → exec (.clipRead tag clip) s = .next (s.replying tag 0x92 .badField [0]))
       ∧ ∀ c : Fin 64, clip.toNat = c.val →
         let use := BitVec.ofNat 8 (s.clip c).useCount
         ((s.clip c).record = none →
           exec (.clipRead tag clip) s = .next (s.replying tag 0x92 .ok (use :: List.replicate 19 0)))
         ∧ ∀ r, (s.clip c).record = some r →
           exec (.clipRead tag clip) s = .next (s.replying tag 0x92 .ok ([use, 1, r.format.code]
             ++ be24 r.base ++ be24 r.count ++ [r.loopMode.code]
             ++ (match r.loop with
                 | none => [0, 0, 0, 0, 0, 0]
                 | some l => be24 l.start ++ be24 l.finish)
             ++ be16 r.step
             ++ (match r.release with
                 | none => [0, 0]
                 | some k => [BitVec.ofNat 8 k.rate, k.scale.code]))))

/-! ### The store -/

/-- STORE READ: its field checks, the refusal of a range that reaches into a busy sector, and the bytes. STORE STATUS with no
operation in flight, and with one: the record of R179. -/
def Obligations.StoreReadAndStoreStatus : Prop :=
  (∀ (tag : Byte) (addr : Addr) (count : Half) (s : State), s.takesRequests →
     let a := addr.toNat
     let n := count.toNat
     let busy := ∃ k, k < n ∧ ∃ i : Fin 128, i.val = (a + k) / 4096 ∧ (s.sectors.get i).busy = true
     (524287 < a → exec (.storeRead tag addr count) s = .next (s.replying tag 0x98 .badField [0]))
     ∧ (a ≤ 524287 → n = 0 ∨ 256 < n ∨ 524287 < a + n - 1 →
         exec (.storeRead tag addr count) s = .next (s.replying tag 0x98 .badField [3]))
     ∧ (1 ≤ n → n ≤ 256 → a + n - 1 ≤ 524287 → busy →
         exec (.storeRead tag addr count) s = .next (s.replying tag 0x98 .busy []))
     ∧ (1 ≤ n → n ≤ 256 → a + n - 1 ≤ 524287 → ¬busy →
         exec (.storeRead tag addr count) s
           = .next (s.replying tag 0x98 .ok ((List.range n).map fun k => Memory.read s.mem (a + k)))))
  ∧ (∀ (tag : Byte) (s : State), s.takesRequests →
       let sectors := s.sectors.cells.flatMap fun x =>
         [if x.suspect then (if x.busy then (3 : Byte) else 1) else (if x.busy then 2 else 0), BitVec.ofNat 8 x.useCount]
       (s.op = none →
         exec (.storeStatus tag) s = .next (s.replying tag 0x9B .ok ([0xFF, 0, 0xFF, 0xFF, 0xFF, 0, 0xFF] ++ sectors)))
       ∧ ∀ r, s.op = some r →
         exec (.storeStatus tag) s = .next (s.replying tag 0x9B .ok
           ([match r.op with
               | .erase => 0
               | .program => 1
               | .commit => 2, BitVec.ofNat 8 r.sector.val]
             ++ (match r.page with
                 | none => [0xFF, 0xFF, 0xFF]
                 | some p => be24 p)
             ++ [BitVec.ofNat 8 r.limitLeft, match r.commitStep with
               | none => 0xFF
               | some k => BitVec.ofNat 8 k] ++ sectors)))

/-- STORE ERASE, STORE PROGRAM and SETUP COMMIT: their checks in their order, and the step each begins. -/
def Obligations.StoreOperationsBegin : Prop :=
  (∀ (tag sector : Byte) (s : State), s.takesRequests →
     (127 < sector.toNat → exec (.storeErase tag sector) s = .next (s.replying tag 0x9A .badField [0]))
     ∧ ∀ i : Fin 128, sector.toNat = i.val →
       (s.op.isSome = true → exec (.storeErase tag sector) s = .next (s.replying tag 0x9A .busy []))
       ∧ (s.op = none → i.val < 2 → exec (.storeErase tag sector) s = .next (s.replying tag 0x9A .isProtected []))
       ∧ (s.op = none → 2 ≤ i.val → 0 < (s.sectors.get i).useCount →
           exec (.storeErase tag sector) s = .next (s.replying tag 0x9A .inUse []))
       ∧ (s.op = none → 2 ≤ i.val → (s.sectors.get i).useCount = 0 →
           exec (.storeErase tag sector) s = .next (
             { s with
               op := some { op := .erase, sector := i, page := none, limitLeft := 50, commitStep := none, data := none
                            image := none }
               sectors := s.sectors.set i { s.sectors.get i with busy := true, openMark := true } }.replying
             tag 0x9A .accepted [])))
  ∧ (∀ (tag : Byte) (addr : Addr) (data : List Byte) (s : State), s.takesRequests →
       (data.length ≠ 256 → exec (.storeProgram tag addr data) s = .next (s.replying tag 0x99 .badLength []))
       ∧ (data.length = 256 → 524287 < addr.toNat ∨ addr.toNat % 256 ≠ 0 →
           exec (.storeProgram tag addr data) s = .next (s.replying tag 0x99 .badField [0]))
       ∧ ∀ i : Fin 128, data.length = 256 → addr.toNat % 256 = 0 → addr.toNat / 4096 = i.val →
         (s.op.isSome = true → exec (.storeProgram tag addr data) s = .next (s.replying tag 0x99 .busy []))
         ∧ (s.op = none → i.val < 2 →
             exec (.storeProgram tag addr data) s = .next (s.replying tag 0x99 .isProtected []))
         ∧ (s.op = none → 2 ≤ i.val → 0 < (s.sectors.get i).useCount →
             exec (.storeProgram tag addr data) s = .next (s.replying tag 0x99 .inUse []))
         ∧ (s.op = none → 2 ≤ i.val → (s.sectors.get i).useCount = 0 →
             exec (.storeProgram tag addr data) s = .next (
               { s with
                 op := some { op := .program, sector := i, page := some addr.toNat, limitLeft := 5, commitStep := none
                              data := some data, image := none }
                 sectors := s.sectors.set i { s.sectors.get i with busy := true, openMark := true } }.replying
               tag 0x99 .accepted [])))
  ∧ (∀ (tag : Byte) (s : State), s.takesRequests →
       (s.op.isSome = true → exec (.setupCommit tag) s = .next (s.replying tag 0x9C .busy []))
       ∧ (s.op = none → exec (.setupCommit tag) s = .next (
           { s with
             op := some { op := .commit, sector := 1, page := none, limitLeft := 50, commitStep := some 1, data := none
                          image := none }
             sectors := s.sectors.set 1 { s.sectors.get 1 with busy := true, openMark := true } }.replying
           tag 0x9C .accepted [])))

/-- The array reports the step of an ERASE finished: every byte of the sector is 0xFF and no other byte changes, the sector
becomes READY, and STORE_DONE is posted. A cold reset lets the step in progress finish: its result reaches the sector, no
STORE_DONE is posted, and the operation ends. -/
def Obligations.StepOfAnEraseEnds : Prop :=
  (∀ (r : OpRecord) (s : State), s.op = some r → r.op = .erase → r.page = none → s.coldWait = false →
     ∃ t, exec .storeStepDone s = .next t
       ∧ (∀ a, Memory.read t.mem a = if r.sector.val * 4096 ≤ a ∧ a < r.sector.val * 4096 + 4096 then 0xFF
           else Memory.read s.mem a)
       ∧ t = { s with
           op := none, mem := t.mem
           sectors := s.sectors.set r.sector
             { s.sectors.get r.sector with busy := false, openMark := false, suspect := false } }.post
           .storeDone r.sector.val 0 0 (eventValue 0 (BitVec.ofNat 8 (r.sector.val * 4096 / 65536))
             (BitVec.ofNat 8 (r.sector.val * 4096 / 256)) (BitVec.ofNat 8 (r.sector.val * 4096))))
  ∧ (∀ (r : OpRecord) (s : State), s.op = some r → s.coldWait = true →
       exec .storeStepDone s = .next { s with
         op := none, coldWait := false, mem := (r.finished s.mem).1
         sectors := s.sectors.set r.sector { s.sectors.get r.sector with
           busy := false, openMark := false
           suspect := if (r.finished s.mem).2 = .ok then (if r.page.isNone then false else (s.sectors.get r.sector).suspect)
                      else true } })

/-- The array reports the step of a PROGRAM finished: each bit of the page is 0 where it was 0 or is programmed 0, no other
byte changes, and the page is verified: OK leaves the sector's state, VERIFY_FAIL makes it SUSPECT. -/
def Obligations.ProgramEndsWithVerification : Prop :=
  ∀ (r : OpRecord) (p : Nat) (d : List Byte) (s : State), s.op = some r → r.op = .program → r.page = some p →
    r.data = some d → d.length = 256 → s.coldWait = false → Memory.wf s.mem = true →
    let equal := ∀ k, k < 256 → Memory.read s.mem (p + k) &&& d.getD k 0 = d.getD k 0
    ∃ t, exec .storeStepDone s = .next t
      ∧ (∀ k, k < 256 → Memory.read t.mem (p + k) = Memory.read s.mem (p + k) &&& d.getD k 0)
      ∧ (∀ a, ¬(p ≤ a ∧ a < p + 256) → Memory.read t.mem a = Memory.read s.mem a)
      ∧ (equal → t = { s with
          op := none, mem := t.mem
          sectors := s.sectors.set r.sector { s.sectors.get r.sector with busy := false, openMark := false } }.post
          .storeDone r.sector.val 0 0
          (eventValue 1 (BitVec.ofNat 8 (p / 65536)) (BitVec.ofNat 8 (p / 256)) (BitVec.ofNat 8 p)))
      ∧ (¬equal → t = { s with
          op := none, mem := t.mem
          sectors := s.sectors.set r.sector
            { s.sectors.get r.sector with busy := false, openMark := false, suspect := true } }.post
          .storeDone r.sector.val 0 2
          (eventValue 1 (BitVec.ofNat 8 (p / 65536)) (BitVec.ofNat 8 (p / 256)) (BitVec.ofNat 8 p)))

/-- The step in progress runs out of time with the coming tick: its sector becomes SUSPECT, STORE_DONE reports TIMEOUT, and
no byte outside the sector of an erase, or the page of a program, changes; the bytes inside are free values (log 8). In the wait
of a cold reset the wait ends and no STORE_DONE is posted; while NRST is asserted the millisecond count stays. Where time does
not run out there, nothing happens (the command's place before its tick is the model's choice, log 3). -/
def Obligations.StepRunsOutOfTime : Prop :=
  ∀ s : State, s.power = true → s.out.frameSub = 31 → s.progress.store = false → s.progress.count = false →
    (∀ r, s.op = some r → r.limitLeft ≤ 1 →
      ∃ t, exec .stepTimeout s = .next t
        ∧ (∀ a, (∀ p, r.page = some p → ¬(p ≤ a ∧ a < p + 256)) →
            (r.page = none → ¬(r.sector.val * 4096 ≤ a ∧ a < r.sector.val * 4096 + 4096)) →
            Memory.read t.mem a = Memory.read s.mem a)
        ∧ (let stopped : State := { s with
             op := none, coldWait := false, mem := t.mem, damage := s.damage + 1
             out := { s.out with msCount := if s.nrst then s.out.msCount else s.out.msCount + 1 }
             sectors := s.sectors.set r.sector
               { s.sectors.get r.sector with busy := false, openMark := false, suspect := true } }
           let ticked : Progress := { s.progress with count := true, store := true }
           (s.coldWait = false → t = { stopped.post .storeDone r.sector.val 0 1
             (eventValue r.op.code (BitVec.ofNat 8 (r.address / 65536)) (BitVec.ofNat 8 (r.address / 256))
               (BitVec.ofNat 8 r.address)) with progress := ticked })
           ∧ (s.coldWait = true → t = { stopped with progress := ticked })))
    ∧ (s.op = none → exec .stepTimeout s = .next s)
    ∧ (∀ r, s.op = some r → 1 < r.limitLeft → exec .stepTimeout s = .next s)

/-- A step of a COMMIT that ends OK begins the next at once, with its sector, page and bytes: pages of the cue image in sector 1,
then pages of the section table and the five sections in sector 0, the rest 0xFF (when the bytes are formed is the model's choice,
log 17; the slot byte of a lane with no autostart slot too, log 28). Step 25 ends the commit with STORE_DONE for sector 0 and
address 1,536; a step that ends VERIFY_FAIL ends it there, with its sector SUSPECT. -/
def Obligations.CommitStepsFollow : Prop :=
  ∀ (r : OpRecord) (k : Nat) (s : State), s.op = some r → r.op = .commit → r.commitStep = some k → s.coldWait = false →
    let m := (r.finished s.mem).1
    let directory := s.clips.cells.flatMap fun c => match c.record with
      | none => List.replicate 19 0
      | some q => [1, q.format.code] ++ be24 q.base ++ be24 q.count ++ [q.loopMode.code]
          ++ (match q.loop with
              | none => [0, 0, 0, 0, 0, 0]
              | some l => be24 l.start ++ be24 l.finish)
          ++ be16 q.step
          ++ (match q.release with
              | none => [0, 0]
              | some p => [BitVec.ofNat 8 p.rate, p.scale.code])
    let cues := s.cues.cells.flatMap cueBytes
    let bindings := s.trg.bindings.cells.flatMap fun b => [if b.enabled then 1 else 0] ++ codeBytes b.code
      ++ [BitVec.ofNat 8 b.lane.val, BitVec.ofNat 8 b.entry.val, if b.clear then 1 else 0, b.policy.code
          , BitVec.ofNat 8 b.holdoff]
    let filter := BitVec.ofNat 8 s.trg.filterList.length :: s.trg.filterList.flatMap codeBytes
    let settings := [if s.out.mode = .stereo then 0 else 1] ++ be16 s.out.leftMaster ++ be16 s.out.rightMaster
      ++ [if s.out.mute = .muted ∨ s.out.mute = .muting then 1 else 0, BitVec.ofNat 8 s.out.deadZone, s.trg.rate.code
          , s.trg.report.code]
    let autostart := s.autostart.cells.flatMap fun a => match a with
      | none => [0, 0]
      | some slot => [1, BitVec.ofNat 8 slot.val]
    let entry (b : List Byte) : List Byte := be16 b.length ++ halfBytes (crc16 b)
    let sectorZero := entry directory ++ entry cues ++ entry bindings ++ entry filter ++ entry settings ++ entry autostart
      ++ directory ++ bindings ++ filter ++ settings ++ autostart
    let holds (page : List Byte) (image : List Byte) (p : Nat) : Prop :=
      page.length = 256 ∧ ∀ j, j < 256 → page.getD j 0 = image.getD (p * 256 + j) 0xFF
    ((r.finished s.mem).2 = .ok → 1 ≤ k → k < 25 → ∃ t u, exec .storeStepDone s = .next t ∧ t.op = some u ∧ u.op = .commit
      ∧ u.commitStep = some (k + 1) ∧ t.evq = s.evq ∧ t.mem = m
      ∧ u.sector = (if k < 17 then 1 else 0)
      ∧ u.page = (if k < 17 then some (4096 + (k - 1) * 256) else if k = 17 then none else some ((k - 18) * 256))
      ∧ u.limitLeft = (if k = 17 then 50 else 5) ∧ u.data = none
      ∧ (k < 17 → ∃ page, u.image = some page ∧ holds page cues (k - 1))
      ∧ (k = 17 → u.image = none)
      ∧ (17 < k → ∃ page, u.image = some page ∧ holds page sectorZero (k - 18))
      ∧ (t.sectors.get u.sector).busy = true ∧ (t.sectors.get u.sector).openMark = true)
    ∧ ((r.finished s.mem).2 = .ok → k = 25 → r.sector = 0 → r.page = some 1536 → ∃ t, exec .storeStepDone s = .next t
      ∧ t.op = none ∧ t.mem = m
      ∧ t.evq = (s.post .storeDone 0 0 0 (eventValue 2 0 6 0)).evq
      ∧ (t.sectors.get 0).busy = false ∧ (t.sectors.get 0).openMark = false)
    ∧ ((r.finished s.mem).2 = .verifyFail → ∃ t, exec .storeStepDone s = .next t ∧ t.op = none ∧ t.mem = m
      ∧ t.sectors = s.sectors.set r.sector
          { s.sectors.get r.sector with busy := false, openMark := false, suspect := true }
      ∧ t.evq = (s.post .storeDone r.sector.val 0 2 (eventValue 2 (BitVec.ofNat 8 (r.address / 65536))
          (BitVec.ofNat 8 (r.address / 256)) (BitVec.ofNat 8 r.address))).evq)
    ∧ (r.page = none → (r.finished s.mem).2 = .ok ∧ ∀ a, Memory.read m a
        = if r.sector.val * 4096 ≤ a ∧ a < r.sector.val * 4096 + 4096 then 0xFF else Memory.read s.mem a)
    ∧ (∀ p d, r.page = some p → r.data = none → r.image = some d → d.length = 256 → Memory.wf s.mem = true →
        (∀ j, j < 256 → Memory.read m (p + j) = Memory.read s.mem (p + j) &&& d.getD j 0)
        ∧ (∀ a, ¬(p ≤ a ∧ a < p + 256) → Memory.read m a = Memory.read s.mem a)
        ∧ ((∀ j, j < 256 → Memory.read m (p + j) = d.getD j 0) → (r.finished s.mem).2 = .ok)
        ∧ ((∃ j, j < 256 ∧ Memory.read m (p + j) ≠ d.getD j 0) → (r.finished s.mem).2 = .verifyFail))

/-! ### Cue memory -/

/-- CUE WRITE: a block of another length, the first field that fails in the order of R60, a commit in flight and a slot that a lane
depends on refuse it; else the slot holds the block, and with no lane starved at the slot nothing else changes; a lane that
starves there takes the new block, here a WAIT_TIME. -/
def Obligations.CueWriteStoresAndWakes : Prop :=
  (∀ (tag slot : Byte) (block : List Byte) (s : State), s.takesRequests →
     let active := ∃ l : Fin 4, (s.lane l).slot = some slot.toFin
       ∧ ((s.lane l).state = .running ∨ (s.lane l).state = .waiting ∨ (s.lane l).state = .paused
         ∨ (s.lane l).state = .faulted)
     let p (i : Nat) : Nat := (block.getD i 0).toNat
     let last := (block.getD 1 0).getLsbD 0 = true
     let pause := (block.getD 1 0).getLsbD 1 = true
     let bad : Option Nat :=
       if p 0 = 0 ∨ 9 < p 0 then some 0
       else if (last ∧ pause) ∨ (p 0 = 8 ∧ (last ∨ pause)) then some 1
       else if 31 < p 3 then some 3
       else if p 0 = 1 then
         if 63 < p 4 then some 4 else if 3 < p 5 then some 5 else if 7 < p 6 then some 6 else if 7 < p 7 then some 7
         else if 4095 < p 10 * 256 + p 11 then some 10 else if 15 < p 12 then some 12
         else if p 15 / 16 % 4 = 3 then some 15 else none
       else if p 0 = 2 then
         if 3 < p 4 then some 4 else if 4095 < p 5 * 256 + p 6 then some 5 else if p 7 = 0 then some 7
         else if 3 < p 8 then some 8 else if 2 < p 9 then some 9 else none
       else if p 0 = 3 ∨ p 0 = 4 ∨ p 0 = 6 then (if 3 < p 4 then some 4 else none)
       else if p 0 = 5 then (if p 4 = 0 ∧ p 5 = 0 then some 4 else none)
       else if p 0 = 8 then (if p 5 = 0 then some 5 else none)
       else none
     (block.length ≠ 16 → exec (.cueWrite tag slot block) s = .next (s.replying tag 0xA0 .badLength []))
     ∧ (∀ i, block.length = 16 → bad = some i →
         exec (.cueWrite tag slot block) s = .next (s.replying tag 0xA0 .badField [BitVec.ofNat 8 (i + 1)]))
     ∧ (block.length = 16 → bad = none → ∃ b, cueBlockOf block = .ok b)
     ∧ (∀ i, block.length = 16 → cueBlockOf block = .error i →
         exec (.cueWrite tag slot block) s = .next (s.replying tag 0xA0 .badField [BitVec.ofNat 8 (i + 1)]))
     ∧ ∀ b, block.length = 16 → cueBlockOf block = .ok b →
       (s.commitInFlight = true → exec (.cueWrite tag slot block) s = .next (s.replying tag 0xA0 .busy []))
       ∧ (s.commitInFlight = false → active →
           exec (.cueWrite tag slot block) s = .next (s.replying tag 0xA0 .slotActive []))
       ∧ (s.commitInFlight = false → ¬active →
           (∀ l : Fin 4, ¬((s.lane l).state = .starved ∧ (s.lane l).slot = some slot.toFin)) →
           exec (.cueWrite tag slot block) s
             = .next ({ s with cues := s.cues.set slot.toFin (some b) }.replying tag 0xA0 .ok [])))
  ∧ (∀ (tag slot : Byte) (block : List Byte) (b : CueBlock) (t : Nat) (l : Fin 4) (s : State), s.takesRequests →
       block.length = 16 → cueBlockOf block = .ok b → b.op = .waitTime t → s.commitInFlight = false →
       (s.lane l).state = .starved → (s.lane l).slot = some slot.toFin →
       (∀ k : Fin 4, k ≠ l → (s.lane k).slot ≠ some slot.toFin) →
       exec (.cueWrite tag slot block) s = .next (
         { s with
           cues := s.cues.set slot.toFin (some b)
           lanes := s.lanes.set l { s.lane l with state := .waiting, wait := some (.time t), budget := 0 } }.replying
         tag 0xA0 .ok []))

/-- CUE CLEAR: every slot of the range becomes EMPTY, or none does. CUE READ answers the sixteen bytes of each slot of the range
in order, and changes nothing. -/
def Obligations.CueClearAndCueRead : Prop :=
  (∀ (tag first last : Byte) (s : State), s.takesRequests →
     let active := ∃ (l : Fin 4) (k : Fin 256), (s.lane l).slot = some k ∧ first.toNat ≤ k.val ∧ k.val ≤ last.toNat
       ∧ ((s.lane l).state = .running ∨ (s.lane l).state = .waiting ∨ (s.lane l).state = .paused
         ∨ (s.lane l).state = .faulted)
     (last.toNat < first.toNat → exec (.cueClear tag first last) s = .next (s.replying tag 0xA1 .badField [1]))
     ∧ (first.toNat ≤ last.toNat → s.commitInFlight = true →
         exec (.cueClear tag first last) s = .next (s.replying tag 0xA1 .busy []))
     ∧ (first.toNat ≤ last.toNat → s.commitInFlight = false → active →
         exec (.cueClear tag first last) s = .next (s.replying tag 0xA1 .slotActive []))
     ∧ (first.toNat ≤ last.toNat → s.commitInFlight = false → ¬active →
         ∃ cues, exec (.cueClear tag first last) s = .next ({ s with cues := cues }.replying tag 0xA1 .ok [])
           ∧ ∀ k : Fin 256, cues.get k = if first.toNat ≤ k.val ∧ k.val ≤ last.toNat then none else s.cues.get k))
  ∧ (∀ (tag first count : Byte) (s : State), s.takesRequests →
       (count.toNat = 0 ∨ 16 < count.toNat ∨ 255 < first.toNat + count.toNat - 1 →
         exec (.cueRead tag first count) s = .next (s.replying tag 0xA2 .badField [1]))
       ∧ (1 ≤ count.toNat → count.toNat ≤ 16 → first.toNat + count.toNat ≤ 256 →
         exec (.cueRead tag first count) s = .next (s.replying tag 0xA2 .ok
           ((List.range count.toNat).flatMap fun k =>
             if h : first.toNat + k < 256 then cueBytes (s.cues.get ⟨first.toNat + k, h⟩) else []))))

/-! ### The lanes -/

/-- LANE START: a busy lane refuses it; else the start procedure and the entry slot, which starves the lane when it is EMPTY,
here taken by WAIT_TIME, WAIT_CODE, WAIT_VOICE on a handle that is not stale, and MARK with PAUSE or LAST, after which the lane is
PAUSED or IDLE with its notice posted, or held for its quiet time. Then one block of a RUNNING lane, taken with no command waiting
(that such a lane goes on there, and which does, is the model's choice, log 6): PLAY with each failure under SKIP, RETRY and FAULT;
RAMP, RELEASE and STOP on an empty handle slot and on a handle; WAIT_VOICE on an empty or stale handle; REPEAT with its four
outcomes; MARK; and RUNAWAY at the 64th. A block that completes posts its CUE_DONE under NOTE; then the lane goes on to an EMPTY
link, is PAUSED at the block by its PAUSE flag or by a request, or is IDLE by LAST and takes a pending start, here at an EMPTY
slot. Toward a link that holds a block, another command is taken before it or the lane takes it, as the free choice of openings has
it. -/
def Obligations.LaneStartRunsTheLane : Prop :=
  (∀ (tag lane slot clear : Byte) (s : State), s.takesRequests →
     (3 < lane.toNat → exec (.laneStart tag lane slot clear) s = .next (s.replying tag 0xA8 .badField [0]))
     ∧ ∀ l : Fin 4, lane.toNat = l.val →
       ((s.lane l).state ≠ .idle → (s.lane l).state ≠ .faulted →
         exec (.laneStart tag lane slot clear) s = .next (s.replying tag 0xA8 .busy []))
       ∧ ((s.lane l).state = .idle ∨ (s.lane l).state = .faulted → s.cues.get slot.toFin = none →
         exec (.laneStart tag lane slot clear) s = .next (
           { s with
             lanes := s.lanes.set l
               { state := .starved, slot := some slot.toFin, origin := some .link
                 handles := if clear = 0 then (s.lane l).handles else Table.const 4 none
                 rep := none, wait := none, pauseRequested := false, budget := 0, notice := none, pendingStart := none
                 fault := none } }.replying tag 0xA8 .ok [])))
  ∧ (∀ (tag lane slot clear : Byte) (l : Fin 4) (b : CueBlock) (s : State), s.takesRequests → lane.toNat = l.val →
       (s.lane l).state = .idle ∨ (s.lane l).state = .faulted → s.cues.get slot.toFin = some b →
       let handles := if clear = 0 then (s.lane l).handles else Table.const 4 none
       let at' (state : LaneState) (k : Option (Fin 256)) : Lane :=
         { state, slot := k, origin := some .link, handles, rep := none, wait := none, pauseRequested := false, budget := 0
           notice := none, pendingStart := none, fault := none }
       let here := at' .waiting (some slot.toFin)
       (∀ t, b.op = .waitTime t → exec (.laneStart tag lane slot clear) s
           = .next ({ s with lanes := s.lanes.set l { here with wait := some (.time t) } }.replying tag 0xA8 .ok []))
       ∧ (∀ c, b.op = .waitCode c → exec (.laneStart tag lane slot clear) s
           = .next ({ s with lanes := s.lanes.set l { here with wait := some (.code c) } }.replying tag 0xA8 .ok []))
       ∧ (∀ i h, b.op = .waitVoice i → handles.get i = some h → s.handleKind h ≠ .stale →
           exec (.laneStart tag lane slot clear) s
             = .next ({ s with lanes := s.lanes.set l { here with wait := some (.voice h) } }.replying tag 0xA8 .ok []))
       ∧ (∀ v, b.op = .mark v → b.pause = true ∨ b.last = true →
           let marked := s.post .mark l.val 0 0 (eventValue (v.extractLsb' 8 8) (v.extractLsb' 0 8) slot 0)
           let noted := if b.note then marked.post .cueDone l.val 0 0 (eventValue slot 0 0 0) else marked
           let stopped := if b.pause then at' .paused (some slot.toFin) else at' .idle none
           exec (.laneStart tag lane slot clear) s = .next (
             (if b.quiet = 0 then
               { (noted.post .laneIdle l.val 0 (if b.pause then 2 else 1) (eventValue slot 0 1 0)) with
                 lanes := s.lanes.set l stopped }
             else
               { noted with
                 lanes := s.lanes.set l { stopped with
                   notice := some ⟨if b.pause then .pause else .runEnd, b.quiet * 8, slot.toFin⟩ } }).replying tag 0xA8 .ok [])))
  ∧ (∀ (l : Fin 4) (k : Fin 256) (b : CueBlock) (s : State), s.pending = [] → s.alc.retry = none →
       (s.lane l).state = .running → (∀ j : Fin 4, j < l → (s.lane j).state ≠ .running) → (s.lane l).slot = some k →
       s.cues.get k = some b →
       let x := s.lane l
       let slot := BitVec.ofNat 8 k.val
       let noted (u : State) : State := if b.note then u.post .cueDone l.val 0 0 (eventValue slot 0 0 0) else u
       let starves (u : State) (y : Lane) (n : Fin 256) : State :=
         { u with lanes := s.lanes.set l { y with state := .starved, slot := some n, budget := 0 } }
       let waits (u : State) (y : Lane) (w : Wait) : State :=
         { u with lanes := s.lanes.set l { y with state := .waiting, wait := some w, budget := 0 } }
       let faults (u : State) (y : Lane) (f : LaneFault) : State :=
         { (u.post .laneIdle l.val 0 3 (eventValue slot f.code (originCode x.origin) (originBinding x.origin))) with
           lanes := s.lanes.set l { y with state := .faulted, fault := some (f, k), wait := none, rep := none
                                           pendingStart := none, pauseRequested := false } }
       let goesOn : Prop := b.pause = false ∧ b.last = false ∧ x.pauseRequested = false ∧ x.budget < 63
       let stops (u : State) (y : Lane) (r : NoticeReason) : State :=
         if b.quiet = 0 then
           { (u.post .laneIdle l.val 0 r.code (eventValue slot 0 (originCode x.origin) (originBinding x.origin))) with
             lanes := s.lanes.set l y }
         else { u with lanes := s.lanes.set l { y with notice := some ⟨r, b.quiet * 8, k⟩ } }
       let idle (y : Lane) : Lane :=
         { y with state := .idle, slot := none, wait := none, rep := none, fault := none, pendingStart := none
                  pauseRequested := false, budget := 0 }
       let restarted (y : Lane) (p : PendingStart) : Lane :=
         { state := .starved, slot := some p.entry, origin := some (.binding p.binding)
           handles := if p.clear then Table.const 4 none else y.handles
           rep := none, wait := none, pauseRequested := false, budget := 0, notice := none, pendingStart := none, fault := none }
       let ends (u : State) (y : Lane) : Prop :=
         (goesOn → s.cues.get b.link = none → step s = .next (starves (noted u) y b.link))
         ∧ (x.budget < 63 → b.pause = true ∨ x.pauseRequested = true → step s = .next (stops (noted u)
             { y with state := .paused, slot := some k, wait := none, pauseRequested := false, budget := 0 } .pause))
         ∧ (x.budget < 63 → b.last = true → b.pause = false → x.pauseRequested = false →
           (x.pendingStart = none → step s = .next (stops (noted u) (idle y) .runEnd))
           ∧ (∀ p, x.pendingStart = some p → s.cues.get p.entry = none → step s = .next
             { stops (noted u) (idle y) .runEnd with lanes := s.lanes.set l (restarted y p) }))
       (∀ p : PlayOperands, b.op = .play p →
         let held (h : Option Handle) : Lane := { x with handles := x.handles.set p.h h }
         let failed := s.counted 9
         (∀ r (v : Fin 16), (s.clip p.order.clip).record = some r → s.sectorsClear r → s.groupAlone p.order →
           (s.voice v).body = .free → (∀ w : Fin 16, w < v → (s.voice w).body ≠ .free) →
           ends (s.bindStart v p.order (.lane l) r).2 (held (some ⟨v, (s.voice v).generation + 1⟩)))
         ∧ (∀ h u, s.takeOrder p.order (.lane l) = (.sounding h, u) ∨ s.takeOrder p.order (.lane l) = (.awaiting h, u) →
           ends u (held (some h))
           ∧ (x.budget = 63 → step s = .next (faults u { held (some h) with budget := 64 } .runaway)))
         ∧ (∀ st, s.orderFails p.order st →
           (p.policy = .skip ∨ (p.policy = .retry ∧ st ≠ .noVoice) →
             ends (failed.post .startFail l.val 0 st.code (eventValue slot 0 0 0)) (held none))
           ∧ (p.policy = .retry → st = .noVoice → step s = .next (waits failed (held none) (.start p.order)))
           ∧ (p.policy = .fault → step s = .next (faults failed (held none) (match st with
               | .notDefined => .clipNotDefined
               | .clipBusy => .clipBusy
               | .suspect => .clipSuspect
               | _ => .noVoice)))))
       ∧ (∀ h : Fin 4,
         (∀ q, b.op = .ramp h q → match x.handles.get h with
           | none => ends s x
           | some d => ends (s.opRamp d q).2 x)
         ∧ (b.op = .release h → match x.handles.get h with
           | none => ends s x
           | some d => ends (s.opRelease d).2 x)
         ∧ (b.op = .stop h → match x.handles.get h with
           | none => ends s x
           | some d => ends (s.opStop d).2 x)
         ∧ (b.op = .waitVoice h → x.handles.get h = none → ends s x)
         ∧ (∀ d, b.op = .waitVoice h → x.handles.get h = some d → s.handleKind d = .stale → ends s x))
       ∧ (∀ target n, b.op = .repeatTo target n →
         (x.rep = none → x.budget < 63 → s.cues.get target = none →
           step s = .next (starves (noted s) { x with rep := some ⟨k, n⟩ } target))
         ∧ (∀ q, x.rep = some q → q.owner = k → x.budget < 63 →
           (1 < q.remaining → s.cues.get target = none →
             step s = .next (starves (noted s) { x with rep := some ⟨k, q.remaining - 1⟩ } target))
           ∧ (q.remaining ≤ 1 → s.cues.get b.link = none →
             step s = .next (starves (noted s) { x with rep := none } b.link)))
         ∧ (∀ q, x.rep = some q → q.owner ≠ k → step s = .next (faults s x .nestedRepeat)))
       ∧ (∀ v : Half, b.op = .mark v →
         let marked := s.post .mark l.val 0 0 (eventValue (v.extractLsb' 8 8) (v.extractLsb' 0 8) slot 0)
         let on : Lane := { x with slot := some b.link, budget := x.budget + 1 }
         ends marked x
         ∧ (x.budget = 63 → step s = .next (faults marked { x with budget := 64 } .runaway))
         ∧ (∀ c, goesOn → s.cues.get b.link = some c →
           (s.openings.headD false = true → step s = .next { noted marked with
             openings := s.openings.tail, lanes := s.lanes.set l on })
           ∧ (∀ t, s.openings.headD false = false → c.op = .waitTime t → step s = .next (waits { noted marked with
             openings := s.openings.tail } on (.time t))))))

/-- LANE PAUSE by the lane's state; a START wait is given up at once, and its PLAY block completes with the pause standing. LANE
RESUME: a lane that is not PAUSED refuses it; at a LAST block the lane enters IDLE, END is posted at once, and a pending start is
then taken, here at an EMPTY slot; else the lane goes on at the link, and starves there when that slot is EMPTY. LANE ABORT: the lane enters IDLE; with CUT the handles' starts
are stopped in order; a notice that is due is posted. -/
def Obligations.LanePauseResumeAbort : Prop :=
  (∀ (tag lane : Byte) (s : State), s.takesRequests →
     (3 < lane.toNat → exec (.lanePause tag lane) s = .next (s.replying tag 0xA9 .badField [0]))
     ∧ ∀ l : Fin 4, lane.toNat = l.val →
       let x := s.lane l
       ((x.state = .running ∨ x.state = .starved ∨ (x.state = .waiting ∧ ∀ o, x.wait ≠ some (.start o))) →
         exec (.lanePause tag lane) s
           = .next ({ s with lanes := s.lanes.set l { x with pauseRequested := true } }.replying tag 0xA9 .ok []))
       ∧ (x.state = .paused → exec (.lanePause tag lane) s = .next (s.replying tag 0xA9 .ok []))
       ∧ (x.state = .idle ∨ x.state = .faulted → exec (.lanePause tag lane) s = .next (s.replying tag 0xA9 .wrongState []))
       ∧ (∀ o k b, x.state = .waiting → x.wait = some (.start o) → x.slot = some k → s.cues.get k = some b →
           (∀ t n, b.op ≠ .repeatTo t n) →
           let failed := s.post .startFail l.val 0 9 (eventValue (BitVec.ofNat 8 k.val) 0 0 0)
           let noted := if b.note then failed.post .cueDone l.val 0 0 (eventValue (BitVec.ofNat 8 k.val) 0 0 0) else failed
           let paused : Lane := { x with state := .paused, wait := none, pauseRequested := false, budget := 0 }
           exec (.lanePause tag lane) s = .next (
             (if b.quiet = 0 then
               { (noted.post .laneIdle l.val 0 2 (eventValue (BitVec.ofNat 8 k.val) 0 (originCode x.origin)
                   (originBinding x.origin))) with lanes := s.lanes.set l paused }
             else
               { noted with lanes := s.lanes.set l { paused with notice := some ⟨.pause, b.quiet * 8, k⟩ } }).replying
             tag 0xA9 .ok [])))
  ∧ (∀ (tag lane : Byte) (s : State), s.takesRequests →
       (3 < lane.toNat → exec (.laneResume tag lane) s = .next (s.replying tag 0xAA .badField [0]))
       ∧ ∀ l : Fin 4, lane.toNat = l.val →
         let x := s.lane l
         (x.state ≠ .paused → exec (.laneResume tag lane) s = .next (s.replying tag 0xAA .wrongState []))
         ∧ ∀ k b, x.state = .paused → x.slot = some k → s.cues.get k = some b →
           let ended := s.post .laneIdle l.val 0 1 (eventValue (BitVec.ofNat 8 k.val) 0 (originCode x.origin)
             (originBinding x.origin))
           (b.last = true → x.pendingStart = none →
             exec (.laneResume tag lane) s = .next (
               { ended with
                 lanes := s.lanes.set l { x with state := .idle, slot := none, wait := none, rep := none, fault := none
                                                 pendingStart := none, pauseRequested := false, budget := 0
                                                 notice := none } }.replying tag 0xAA .ok []))
           ∧ (∀ p, b.last = true → x.pendingStart = some p → s.cues.get p.entry = none →
             exec (.laneResume tag lane) s = .next (
               { ended with
                 lanes := s.lanes.set l
                   { state := .starved, slot := some p.entry, origin := some (.binding p.binding)
                     handles := if p.clear then Table.const 4 none else x.handles
                     rep := none, wait := none, pauseRequested := false, budget := 0, notice := none, pendingStart := none
                     fault := none } }.replying tag 0xAA .ok []))
           ∧ (b.last = false → s.cues.get b.link = none →
             exec (.laneResume tag lane) s = .next (
               { s with lanes := s.lanes.set l { x with state := .starved, slot := some b.link, budget := 0
                                                        notice := none } }.replying tag 0xAA .ok [])))
  ∧ (∀ (tag lane voices : Byte) (s : State), s.takesRequests →
       (3 < lane.toNat → exec (.laneAbort tag lane voices) s = .next (s.replying tag 0xAB .badField [0]))
       ∧ (lane.toNat ≤ 3 → 1 < voices.toNat → exec (.laneAbort tag lane voices) s = .next (s.replying tag 0xAB .badField [1]))
       ∧ ∀ l : Fin 4, lane.toNat = l.val → voices.toNat ≤ 1 →
         let x := s.lane l
         let idle : State := { s with
           lanes := s.lanes.set l
             { x with state := .idle, slot := none, wait := none, rep := none, fault := none, pendingStart := none
                      pauseRequested := false, budget := 0, notice := none } }
         let stopAt (h : Fin 4) (u : State) : State :=
           match x.handles.get h with
           | none => u
           | some k => (u.opStop k).2
         let after := if voices = 1 then stopAt 3 (stopAt 2 (stopAt 1 (stopAt 0 idle))) else idle
         let notice (slot : Option (Fin 256)) := after.post .laneIdle l.val 0 4
           (eventValue (slotByte slot) 0 (originCode x.origin) (originBinding x.origin))
         (x.state = .idle → x.notice = none → exec (.laneAbort tag lane voices) s = .next (after.replying tag 0xAB .ok []))
         ∧ (∀ n, x.state = .idle → x.notice = some n →
             exec (.laneAbort tag lane voices) s = .next ((notice (some n.slot)).replying tag 0xAB .ok []))
         ∧ (x.state ≠ .idle → exec (.laneAbort tag lane voices) s = .next ((notice x.slot).replying tag 0xAB .ok [])))

/-- LANE STATUS answers a record of 31 bytes and VOICE STATUS one of 36, whose fields stand at the offsets of R178; neither
changes anything. The last two bytes of a TIME, VOICE or START wait's content, which the layout leaves open, are 0: the model's
choice, log 27. -/
def Obligations.StatusRecordsAnswerTheContext : Prop :=
  (∀ (tag lane : Byte) (s : State), s.takesRequests →
     (3 < lane.toNat → exec (.laneStatus tag lane) s = .next (s.replying tag 0xAC .badField [0]))
     ∧ ∀ l : Fin 4, lane.toNat = l.val →
       let x := s.lane l
       let bit (present : Bool) (n : Nat) : Nat := if present then n else 0
       let handle (i : Fin 4) : List Byte := match x.handles.get i with
         | none => [0xFF, 0]
         | some h => [BitVec.ofNat 8 h.voice.val, h.generation]
       let wait : List Byte := match x.wait with
         | none => [0, 0, 0, 0, 0]
         | some (.time t) => [1, BitVec.ofNat 8 (t / 256), BitVec.ofNat 8 t, 0, 0]
         | some (.voice h) => [2, BitVec.ofNat 8 h.voice.val, h.generation, 0, 0]
         | some (.code c) => 3 :: codeBytes c
         | some (.start o) => [4, BitVec.ofNat 8 o.clip.val, BitVec.ofNat 8 o.priority.val, 0, 0]
       ∃ data, exec (.laneStatus tag lane) s = .next (s.replying tag 0xAC .ok data) ∧ data.length = 31
         ∧ data = [lane, x.state.code,
             BitVec.ofNat 8 (bit x.slot.isSome 1 + bit x.origin.isSome 2 + bit x.rep.isSome 4 + bit x.wait.isSome 8
               + bit x.notice.isSome 16 + bit x.pendingStart.isSome 32 + bit x.fault.isSome 64),
             slotByte x.slot, originCode x.origin, originBinding x.origin]
           ++ handle 0 ++ handle 1 ++ handle 2 ++ handle 3
           ++ (match x.rep with
               | none => [0, 0]
               | some r => [BitVec.ofNat 8 r.owner.val, BitVec.ofNat 8 r.remaining])
           ++ wait ++ [if x.pauseRequested then 1 else 0, BitVec.ofNat 8 x.budget]
           ++ (match x.notice with
               | none => [0, 0, 0]
               | some n => [n.reason.code, BitVec.ofNat 8 n.msLeft, BitVec.ofNat 8 n.slot.val])
           ++ (match x.pendingStart with
               | none => [0, 0, 0]
               | some p => [BitVec.ofNat 8 p.binding.val, BitVec.ofNat 8 p.entry.val, if p.clear then 1 else 0])
           ++ (match x.fault with
               | none => [0, 0]
               | some (f, k) => [f.code, BitVec.ofNat 8 k.val]))
  ∧ (∀ (tag voice : Byte) (v : Fin 16) (s : State), s.takesRequests → voice.toNat = v.val →
       let x := s.voice v
       let start (y : Sounding) : List Byte :=
         [BitVec.ofNat 8 y.clip.val, BitVec.ofNat 8 (y.pos / 4096 / 65536), BitVec.ofNat 8 (y.pos / 4096 / 256),
           BitVec.ofNat 8 (y.pos / 4096), BitVec.ofNat 8 (y.pos % 4096 / 256), BitVec.ofNat 8 (y.pos % 4096),
           if y.direction = .forward then 0 else 1, BitVec.ofNat 8 (y.step / 256), BitVec.ofNat 8 y.step, y.loopMode.code,
           BitVec.ofNat 8 y.loops, if y.exit then 1 else 0, BitVec.ofNat 8 (y.level / 256), BitVec.ofNat 8 y.level]
         ++ (match y.release with
             | none => [0, 0]
             | some q => [BitVec.ofNat 8 q.rate, q.scale.code])
         ++ [BitVec.ofNat 8 y.pan.val, BitVec.ofNat 8 y.priority.val, BitVec.ofNat 8 y.group.val,
           if y.noteEnd then 1 else 0, y.owner.code]
         ++ (match y.ramp with
             | none => [0xFF, 0, 0, 0, 0]
             | some p => [p.mode.code, BitVec.ofNat 8 (p.target / 256), BitVec.ofNat 8 p.target, BitVec.ofNat 8 p.rate,
                 p.scale.code])
       let answers (data : List Byte) : Prop :=
         exec (.voiceStatus tag voice) s = .next (s.replying tag 0xB6 .ok data) ∧ data.length = 36
       match x.body with
       | .free => answers ([voice, 0, x.generation] ++ List.replicate 21 0 ++ [0xFF, 0, 0, 0, 0, 0xFF] ++ List.replicate 6 0)
       | .playing y => answers ([voice, 1, x.generation] ++ start y ++ [0xFF] ++ List.replicate 6 0)
       | .releasing y => answers ([voice, 2, x.generation] ++ start y ++ [0xFF] ++ List.replicate 6 0)
       | .held y from' =>
         answers ([voice, 3, x.generation] ++ start y ++ [if from' = .playing then 1 else 2] ++ List.replicate 6 0)
       | .cutting y c z => answers ([voice, 4, x.generation] ++ start y
           ++ [0xFF, BitVec.ofNat 8 c.framesLeft, c.reason.endReason.code, c.generation]
           ++ (match z with
               | none => [0, 0, 0]
               | some q => [1, q.generation, q.owner.code])))

/-- AUTOSTART SET sets the lane's entry of the autostart table, and acts on no lane. An autostart entry starts an IDLE lane with
clear handles and origin AUTOSTART, here at an EMPTY slot and at a WAIT_TIME block, and leaves any other lane alone. That the
entries wait for AUTOSTART_ENTRY, and that it has no effect where none is left, is the model's choice (log 5). -/
def Obligations.AutostartTableStartsIdleLanes : Prop :=
  (∀ (tag lane enabled slot : Byte) (s : State), s.takesRequests →
     (3 < lane.toNat → exec (.autostartSet tag lane enabled slot) s = .next (s.replying tag 0xAD .badField [0]))
     ∧ ∀ l : Fin 4, lane.toNat = l.val →
       (s.commitInFlight = true → exec (.autostartSet tag lane enabled slot) s = .next (s.replying tag 0xAD .busy []))
       ∧ (s.commitInFlight = false → exec (.autostartSet tag lane enabled slot) s = .next (
           { s with autostart := s.autostart.set l (if enabled = 0 then none else some slot.toFin) }.replying
           tag 0xAD .ok [])))
  ∧ (∀ s : State,
       (s.autostartDue = [] → exec .autostartEntry s = .next s)
       ∧ ∀ l k rest, s.autostartDue = (l, k) :: rest →
         ((s.lane l).state ≠ .idle → exec .autostartEntry s = .next { s with autostartDue := rest })
         ∧ ((s.lane l).state = .idle →
           let started (state : LaneState) (wait : Option Wait) : State := { s with
             autostartDue := rest
             lanes := s.lanes.set l
               { state, slot := some k, origin := some .autostart, handles := Table.const 4 none, rep := none, wait
                 pauseRequested := false, budget := 0, notice := none, pendingStart := none, fault := none } }
           (s.cues.get k = none → exec .autostartEntry s = .next (started .starved none))
           ∧ ∀ b t, s.cues.get k = some b → b.op = .waitTime t →
             exec .autostartEntry s = .next (started .waiting (some (.time t)))))

/-- LNC takes a signal or a routed code: a lane that waits on it completes its block, one without NOTE, LAST or PAUSE, and goes on,
here to an EMPTY slot; a signal no lane waits on is disregarded, and a code a lane waited on is not counted as unbound. Several
lanes woken by one signal stand in order, L0 first. That the signals wait for HANDLE_NOT_LIVE, the oldest first, and that it has no
effect where none waits, is the model's choice (log 5). -/
def Obligations.SignalOrCodeEndsAWait : Prop :=
  (∀ s : State,
     (s.signals = [] → exec .handleNotLive s = .next s)
     ∧ ∀ h rest, s.signals = h :: rest →
       ((∀ l : Fin 4, (s.lane l).wait ≠ some (.voice h)) → exec .handleNotLive s = .next { s with signals := rest })
       ∧ ∀ l k b, (s.lane l).wait = some (.voice h) → (∀ j : Fin 4, j ≠ l → (s.lane j).wait ≠ some (.voice h)) →
         (s.lane l).slot = some k → s.cues.get k = some b → b.note = false → b.pause = false → b.last = false →
         (s.lane l).pauseRequested = false → s.cues.get b.link = none →
         exec .handleNotLive s = .next { s with
           signals := rest
           lanes := s.lanes.set l { s.lane l with state := .starved, wait := none, slot := some b.link, budget := 0 } })
  ∧ (∀ (h : Handle) (rest : List Handle) (s : State), s.signals = h :: rest →
       (∀ l : Fin 4, (s.lane l).wait = some (.voice h) ∧ ∃ k b, (s.lane l).slot = some k ∧ s.cues.get k = some b
         ∧ b.note = true ∧ b.pause = false ∧ b.last = false ∧ (s.lane l).pauseRequested = false
         ∧ s.cues.get b.link = none) →
       let done (u : State) (l : Fin 4) : State := u.post .cueDone l.val 0 0 (eventValue (slotByte (s.lane l).slot) 0 0 0)
       ∃ t, exec .handleNotLive s = .next t ∧ t.evq = (done (done (done (done s 0) 1) 2) 3).evq
         ∧ ∀ l : Fin 4, (t.lane l).state = .starved ∧ (t.lane l).wait = none)
  ∧ (∀ (c : Code) (e last : Byte) (l : Fin 4) (k : Fin 256) (b : CueBlock) (s : State), s.trg.rx = .collecting →
       s.trg.reception ≠ .dropped → s.trg.bytes = codeBytes c ++ [e] → halfBytes (crc16 (codeBytes c)) = [e, last] → s.trg.filterList = [] →
       s.trg.report ≠ .all → (s.lane l).wait = some (.code c) → (∀ j : Fin 4, j ≠ l → (s.lane j).wait ≠ some (.code c)) →
       (∀ i : Fin 32, (s.binding i).enabled = true → (s.binding i).code ≠ c) → (s.lane l).slot = some k →
       s.cues.get k = some b → b.note = false → b.pause = false → b.last = false → (s.lane l).pauseRequested = false →
       s.cues.get b.link = none →
       exec (.triggerFrameComplete last) s = .next { s with
         trg := { s.trg with rx := .hunting, bytes := [], gap := 0, reception := .idle }
         lanes := s.lanes.set l { s.lane l with state := .starved, wait := none, slot := some b.link, budget := 0 } })

/-- A retry round clears offer due; a retry that fails, with any status, counts and posts nothing and leaves its lane waiting; one
that succeeds stores the handle and completes the PLAY block. Where another command is taken between ALC's question and its
answer (the free choice of openings, log 6; that ALC takes the order only after that command is the model's choice, log 6), the retry
stands until it is answered; a success then reaches the lane only in the same
START wait, and else the start plays on and its handle is not stored. That a round waits for RETRY_ROUND, and that it has no
effect with offer due clear and no retry standing, is the model's choice (log 5). -/
def Obligations.RetryRoundRetriesWaitingLanes : Prop :=
  (∀ s : State, s.alc.retry = none →
    let waits (l : Fin 4) (o : StartOrder) : Prop := (s.lane l).state = .waiting ∧ (s.lane l).wait = some (.start o)
    let cleared : State := { s with alc := { s.alc with offerDue := false } }
    (s.alc.offerDue = false → exec .retryRound s = .next s)
    ∧ (s.alc.offerDue = true → (∀ l o, ¬waits l o) → exec .retryRound s = .next cleared)
    ∧ (s.alc.offerDue = true → (∀ b ∈ s.openings, b = false) → (∀ l o, waits l o → ∃ st, s.orderFails o st) →
        ∃ n, n ≤ 4 ∧ exec .retryRound s = .next { cleared with openings := s.openings.drop n })
    ∧ (∀ (l : Fin 4) o p k b r (v : Fin 16), s.alc.offerDue = true → waits l o →
        (∀ j : Fin 4, j ≠ l → (s.lane j).state ≠ .waiting) →
        (s.lane l).slot = some k → s.cues.get k = some b → b.op = .play p → b.note = false → b.pause = false →
        b.last = false → (s.lane l).pauseRequested = false → s.cues.get b.link = none →
        (s.clip o.clip).record = some r → s.sectorsClear r →
        o.group = 0 → (s.voice v).body = .free → (∀ w : Fin 16, w < v → (s.voice w).body ≠ .free) →
        s.openings.headD false = false →
        exec .retryRound s = .next { (cleared.bindStart v o (.lane l) r).2 with
          openings := s.openings.tail
          lanes := s.lanes.set l { s.lane l with
            state := .starved, wait := none, slot := some b.link, budget := 0
            handles := (s.lane l).handles.set p.h (some ⟨v, (s.voice v).generation + 1⟩) } })
    ∧ (∀ (l : Fin 4) o, s.alc.offerDue = true → waits l o → (∀ (j : Fin 4) q, j < l → ¬waits j q) →
        s.openings.headD false = true →
        exec .retryRound s = .next { s with
          openings := s.openings.tail
          alc := { s.alc with offerDue := false, retry := some ⟨l, o, true⟩ } }))
  ∧ (∀ (q : Retry) (s : State), s.alc.retry = some q →
       (∀ (j : Fin 4) o, q.lane < j → ¬((s.lane j).state = .waiting ∧ (s.lane j).wait = some (.start o))) →
       let answered : State := { s with alc := { s.alc with retry := none } }
       ((∃ st, s.orderFails q.order st) → exec .retryRound s = .next answered)
       ∧ ∀ r (v : Fin 16), (s.clip q.order.clip).record = some r → s.sectorsClear r → s.groupAlone q.order →
         (s.voice v).body = .free → (∀ w : Fin 16, w < v → (s.voice w).body ≠ .free) →
         let bound := (answered.bindStart v q.order (.lane q.lane) r).2
         (q.standing = false ∨ (∀ o, ¬((s.lane q.lane).state = .waiting ∧ (s.lane q.lane).wait = some (.start o))) →
           exec .retryRound s = .next bound)
         ∧ ∀ o p k b, q.standing = true → (s.lane q.lane).state = .waiting → (s.lane q.lane).wait = some (.start o) →
           (s.lane q.lane).slot = some k → s.cues.get k = some b → b.op = .play p → b.note = false → b.pause = false →
           b.last = false → (s.lane q.lane).pauseRequested = false → s.cues.get b.link = none →
           exec .retryRound s = .next { bound with
             lanes := s.lanes.set q.lane { s.lane q.lane with
               state := .starved, wait := none, slot := some b.link, budget := 0
               handles := (s.lane q.lane).handles.set p.h (some ⟨v, (s.voice v).generation + 1⟩) } })

/-! ### Voices -/

/-- The field checks of the voice requests in the order of their payloads (R20, R40): the index of the first bad field is
answered; else the start order of VOICE PLAY holds the fields. -/
def Obligations.VoiceRequestsCheckTheirFields : Prop :=
  (∀ (tag : Byte) (w : OrderWire) (s : State), s.takesRequests →
     let ramped := w.flags.getLsbD 2 = true
     let bad : Option Nat :=
       if 63 < w.clip.toNat then some 0
       else if 7 < w.priority.toNat then some 1
       else if 7 < w.group.toNat then some 2
       else if 4095 < w.level.toNat then some 5
       else if 15 < w.pan.toNat then some 7
       else if w.releaseRate ≠ 0 ∧ 3 < w.releaseScale.toNat then some 10
       else if ramped ∧ 4095 < w.rampTarget.toNat then some 12
       else if ramped ∧ w.rampRate = 0 then some 14
       else if ramped ∧ 3 < w.rampScale.toNat then some 15
       else if ramped ∧ 2 < w.rampMode.toNat then some 16
       else none
     (∀ k, bad = some k → exec (.voicePlay tag w) s = .next (s.replying tag 0xB0 .badField [BitVec.ofNat 8 k]))
     ∧ (bad = none → ∃ o, orderOf w = .ok o ∧ o.clip.val = w.clip.toNat ∧ o.priority.val = w.priority.toNat
         ∧ o.group.val = w.group.toNat ∧ o.step = w.step.toNat ∧ o.level = w.level.toNat ∧ o.pan.val = w.pan.toNat
         ∧ o.loopCount = w.loopCount.toNat ∧ (o.reverse = true ↔ w.flags.getLsbD 0 = true)
         ∧ (o.noteEnd = true ↔ w.flags.getLsbD 1 = true)
         ∧ (w.releaseRate = 0 → o.release = none)
         ∧ (w.releaseRate ≠ 0 → ∃ k, o.release = some ⟨w.releaseRate.toNat, k⟩ ∧ k.code = w.releaseScale)
         ∧ (¬ramped → o.ramp = none)
         ∧ (ramped → ∃ r, o.ramp = some r ∧ r.target = w.rampTarget.toNat ∧ r.rate = w.rampRate.toNat
             ∧ r.scale.code = w.rampScale ∧ r.mode.code = w.rampMode ∧ (r.notify = true ↔ w.rampNotify ≠ 0))))
  ∧ (∀ (tag voice g : Byte) (target : Half) (rate scale mode notify : Byte) (s : State), s.takesRequests →
       let ramp := exec (.voiceRamp tag voice g target rate scale mode notify) s
       (15 < voice.toNat →
         ramp = .next (s.replying tag 0xB1 .badField [0])
         ∧ exec (.voiceRelease tag voice g) s = .next (s.replying tag 0xB2 .badField [0])
         ∧ exec (.voiceStop tag voice g) s = .next (s.replying tag 0xB3 .badField [0])
         ∧ exec (.voiceHold tag voice g) s = .next (s.replying tag 0xB4 .badField [0])
         ∧ exec (.voiceContinue tag voice g) s = .next (s.replying tag 0xB5 .badField [0])
         ∧ exec (.voiceStatus tag voice) s = .next (s.replying tag 0xB6 .badField [0]))
       ∧ (voice.toNat ≤ 15 →
         (4095 < target.toNat → ramp = .next (s.replying tag 0xB1 .badField [2]))
         ∧ (target.toNat ≤ 4095 → rate = 0 → ramp = .next (s.replying tag 0xB1 .badField [4]))
         ∧ (target.toNat ≤ 4095 → rate ≠ 0 → 3 < scale.toNat → ramp = .next (s.replying tag 0xB1 .badField [5]))
         ∧ (target.toNat ≤ 4095 → rate ≠ 0 → scale.toNat ≤ 3 → 2 < mode.toNat →
             ramp = .next (s.replying tag 0xB1 .badField [6]))))

/-- VOICE PLAY: the checks of R42 in their order, and the failure for want of a voice; each failure counts in START_FAILS. -/
def Obligations.VoicePlayFailures : Prop :=
  ∀ (tag : Byte) (w : OrderWire) (o : StartOrder) (s : State), s.takesRequests → orderOf w = .ok o →
    ((s.clip o.clip).record = none →
      exec (.voicePlay tag w) s = .next ((s.counted 9).replying tag 0xB0 .notDefined []))
    ∧ ∀ r, (s.clip o.clip).record = some r →
      let backward := o.reverse = true ∧ r.loopMode ≠ .none
      let busy := ∃ i : Fin 128, r.touches i = true ∧ (s.sectors.get i).busy = true
      let suspect := ∃ i : Fin 128, r.touches i = true ∧ (s.sectors.get i).suspect = true
      (backward → exec (.voicePlay tag w) s = .next (s.replying tag 0xB0 .badField [11]))
      ∧ (¬backward → busy → exec (.voicePlay tag w) s = .next ((s.counted 9).replying tag 0xB0 .clipBusy []))
      ∧ (¬backward → ¬busy → suspect →
          exec (.voicePlay tag w) s = .next ((s.counted 9).replying tag 0xB0 .suspect []))
      ∧ (¬backward → ¬busy → ¬suspect → o.group = 0 →
          (∀ v : Fin 16, (∃ y c z, (s.voice v).body = .cutting y c (some z))
            ∨ ∃ y, (s.voice v).stands = some y ∧ o.priority ≤ y.priority) →
          exec (.voicePlay tag w) s = .next ((s.counted 9).replying tag 0xB0 .noVoice []))

/-- VOICE PLAY of an order that passes R42, with no start of its group: the lowest FREE voice begins the start, or else the
lowest CUTTING voice without a successor takes the order as its successor. -/
def Obligations.VoicePlayTakesAFreeOrCuttingVoice : Prop :=
  ∀ (tag : Byte) (w : OrderWire) (o : StartOrder) (r : ClipRecord) (v : Fin 16) (s : State), s.takesRequests →
    orderOf w = .ok o → (s.clip o.clip).record = some r → (o.reverse = false ∨ r.loopMode = .none) →
    (∀ i : Fin 128, r.touches i = true → (s.sectors.get i).busy = false ∧ (s.sectors.get i).suspect = false) →
    (o.group = 0 ∨ ∀ x : Fin 16, (∀ y, (s.voice x).stands = some y → y.group ≠ o.group)
      ∧ ∀ y c z, (s.voice x).body = .cutting y c (some z) → z.order.group ≠ o.group) →
    let g := (s.voice v).generation + 1
    let start : Sounding :=
      { clip := o.clip
        pos := if o.reverse then (r.count - 1) * 4096 else 0
        direction := if o.reverse then .backward else .forward
        step := if o.step = 0 then r.step else o.step
        loopMode := r.loopMode
        loops := o.loopCount
        exit := false
        level := o.level
        ramp := match o.ramp with
          | none => none
          | some p => some { mode := p.mode, base := o.level, target := p.target, rate := p.rate, scale := p.scale, sub := 0
                             notify := p.notify }
        release := if o.release = none then r.release else o.release
        pan := o.pan
        priority := o.priority
        group := o.group
        noteEnd := o.noteEnd
        owner := .link }
    ((s.voice v).body = .free → (∀ x : Fin 16, x < v → (s.voice x).body ≠ .free) →
      ∃ t, s.claimedMore t o.clip ∧ exec (.voicePlay tag w) s = .next (State.replying
        { t with
          voices := s.voices.set v ⟨g, .playing start⟩
          alc := { s.alc with age := s.alc.age ++ [v] } } tag 0xB0 .ok [BitVec.ofNat 8 v.val, g, 0]))
    ∧ ∀ y c, (∀ x : Fin 16, (s.voice x).body ≠ .free) → (s.voice v).body = .cutting y c none →
      (∀ x : Fin 16, x < v → ∀ a b, (s.voice x).body ≠ .cutting a b none) →
      ∃ t, s.claimedMore t o.clip ∧ exec (.voicePlay tag w) s = .next (State.replying
        { t with
          voices := s.voices.set v ⟨g, .cutting y c (some ⟨o, g, .link⟩)⟩
          alc := { s.alc with age := s.alc.age.erase v ++ [v] }
          signals := if c.generation = (s.voice v).generation then s.signals ++ [⟨v, c.generation⟩] else s.signals
        } tag 0xB0 .ok [BitVec.ofNat 8 v.val, g, 1])

/-- VOICE PLAY steals when every voice sounds: among the voices of lower priority, the lowest priority first, then a
RELEASING one, then the oldest claim. A sounding victim is cut and the order is its successor; a HELD victim ends at once
and the order begins. -/
def Obligations.VoicePlaySteals : Prop :=
  ∀ (tag : Byte) (w : OrderWire) (o : StartOrder) (r : ClipRecord) (v : Fin 16) (y : Sounding) (s : State),
    s.takesRequests → orderOf w = .ok o → (s.clip o.clip).record = some r → (o.reverse = false ∨ r.loopMode = .none) →
    (∀ i : Fin 128, r.touches i = true → (s.sectors.get i).busy = false ∧ (s.sectors.get i).suspect = false) →
    o.group = 0 → s.ageLaw →
    (∀ x : Fin 16, (s.voice x).body ≠ .free ∧ ∀ a b, (s.voice x).body ≠ .cutting a b none) →
    (s.voice v).stands = some y → y.priority < o.priority →
    (∀ (x : Fin 16) z, x ≠ v → (s.voice x).stands = some z →
      y.priority < z.priority
      ∨ (y.priority = z.priority
        ∧ (((s.voice v).isReleasing = true ∧ (s.voice x).isReleasing = false)
          ∨ ((s.voice v).isReleasing = (s.voice x).isReleasing ∧ s.alc.age.idxOf v < s.alc.age.idxOf x)))) →
    let g := (s.voice v).generation
    let stolen := s.counted 8
    ((s.voice v).body = .playing y ∨ (s.voice v).body = .releasing y →
      ∃ t, stolen.claimedMore t o.clip ∧ exec (.voicePlay tag w) s = .next (State.replying
        { t with
          voices := s.voices.set v ⟨g + 1, .cutting y ⟨32, .stolen, g⟩ (some ⟨o, g + 1, .link⟩)⟩
          alc := { s.alc with age := s.alc.age.erase v ++ [v] }
          signals := s.signals ++ [⟨v, g⟩] } tag 0xB0 .ok [BitVec.ofNat 8 v.val, g + 1, 1]))
    ∧ ∀ from', (s.voice v).body = .held y from' →
      ∃ t u, stolen.claimedLess t y.clip ∧ t.claimedMore u o.clip ∧ exec (.voicePlay tag w) s = .next (State.replying
        { u with
          voices := s.voices.set v ⟨g + 1, .playing (o.begin .link r)⟩
          alc := { s.alc with age := s.alc.age.erase v ++ [v], offerDue := true }
          signals := s.signals ++ [⟨v, g⟩]
          evq := stolen.noted y.noteEnd v g 4 y.owner } tag 0xB0 .ok [BitVec.ofNat 8 v.val, g + 1, 0])

/-- The group rule: a start of the order's group that sounds on another voice is cut as SUPERSEDED before the voice choice, a
HELD one ends at once and its voice is open to the choice, and a successor of the group is cancelled as SUPERSEDED; here with a
FREE voice for the order. -/
def Obligations.GroupRuleSupersedes : Prop :=
  ∀ (tag : Byte) (w : OrderWire) (o : StartOrder) (r : ClipRecord) (v x : Fin 16) (s : State), s.takesRequests →
    orderOf w = .ok o → (s.clip o.clip).record = some r → (o.reverse = false ∨ r.loopMode = .none) →
    (∀ i : Fin 128, r.touches i = true → (s.sectors.get i).busy = false ∧ (s.sectors.get i).suspect = false) →
    o.group ≠ 0 → (s.voice v).body = .free → (∀ z : Fin 16, z < v → (s.voice z).body ≠ .free) →
    (∀ z : Fin 16, z ≠ x → (∀ y, (s.voice z).stands = some y → y.group ≠ o.group)
      ∧ ∀ y c p, (s.voice z).body = .cutting y c (some p) → p.order.group ≠ o.group) →
    let g := (s.voice v).generation + 1
    (∀ y, (s.voice x).body = .playing y ∨ (s.voice x).body = .releasing y → y.group = o.group →
      ∃ t, s.claimedMore t o.clip ∧ exec (.voicePlay tag w) s = .next (State.replying
        { t with
          voices := (s.voices.set x ⟨(s.voice x).generation, .cutting y ⟨32, .superseded, (s.voice x).generation⟩ none⟩).set
            v ⟨g, .playing (o.begin .link r)⟩
          alc := { s.alc with age := s.alc.age ++ [v] } } tag 0xB0 .ok [BitVec.ofNat 8 v.val, g, 0]))
    ∧ (∀ y from', (s.voice x).body = .held y from' → y.group = o.group →
      let a := if x < v then x else v
      let g' := (s.voice a).generation + 1
      ∃ t u, s.claimedLess t y.clip ∧ t.claimedMore u o.clip ∧ exec (.voicePlay tag w) s = .next (State.replying
        { u with
          voices := (s.voices.set x ⟨(s.voice x).generation, .free⟩).set a ⟨g', .playing (o.begin .link r)⟩
          alc := { s.alc with age := s.alc.age.erase x ++ [a], offerDue := true }
          signals := s.signals ++ [⟨x, (s.voice x).generation⟩]
          evq := s.noted y.noteEnd x (s.voice x).generation 5 y.owner } tag 0xB0 .ok [BitVec.ofNat 8 a.val, g', 0]))
    ∧ ∀ y c p, (s.voice x).body = .cutting y c (some p) → p.order.group = o.group →
      ∃ t u, s.claimedLess t p.order.clip ∧ t.claimedMore u o.clip ∧ exec (.voicePlay tag w) s = .next (State.replying
        { u with
          voices := (s.voices.set x ⟨(s.voice x).generation, .cutting y c none⟩).set v ⟨g, .playing (o.begin .link r)⟩
          alc := { s.alc with age := s.alc.age ++ [v], offerDue := true }
          signals := s.signals ++ [⟨x, p.generation⟩]
          evq := s.noted p.order.noteEnd x p.generation 5 p.owner } tag 0xB0 .ok [BitVec.ofNat 8 v.val, g, 0])

/-- The five handle requests on a handle that is stale, or whose start is being cut, or awaits its cut. -/
def Obligations.HandlesThatDoNotSound : Prop :=
  ∀ (tag voice g : Byte) (v : Fin 16) (target : Half) (rate scale mode notify : Byte) (s : State), s.takesRequests →
    voice.toNat = v.val →
    let x := s.voice v
    let inRange := target.toNat ≤ 4095 ∧ rate ≠ 0 ∧ scale.toNat ≤ 3 ∧ mode.toNat ≤ 2
    let ramp := exec (.voiceRamp tag voice g target rate scale mode notify) s
    let release := exec (.voiceRelease tag voice g) s
    let stop := exec (.voiceStop tag voice g) s
    let hold := exec (.voiceHold tag voice g) s
    let goOn := exec (.voiceContinue tag voice g) s
    (x.body = .free ∨ x.generation ≠ g ∨ (∃ y c, x.body = .cutting y c none ∧ c.generation ≠ g) →
      (inRange → ramp = .next (s.replying tag 0xB1 .stale []))
      ∧ release = .next (s.replying tag 0xB2 .stale []) ∧ stop = .next (s.replying tag 0xB3 .stale [])
      ∧ hold = .next (s.replying tag 0xB4 .stale []) ∧ goOn = .next (s.replying tag 0xB5 .stale []))
    ∧ (∀ y c, x.body = .cutting y c none → x.generation = g → c.generation = g →
      (inRange → ramp = .next (s.replying tag 0xB1 .notApplied []))
      ∧ release = .next (s.replying tag 0xB2 .notApplied []) ∧ stop = .next (s.replying tag 0xB3 .ok [])
      ∧ hold = .next (s.replying tag 0xB4 .wrongState []) ∧ goOn = .next (s.replying tag 0xB5 .wrongState []))
    ∧ ∀ y c z, x.body = .cutting y c (some z) → x.generation = g →
      (inRange → ramp = .next (s.replying tag 0xB1 .notApplied []))
      ∧ hold = .next (s.replying tag 0xB4 .wrongState []) ∧ goOn = .next (s.replying tag 0xB5 .wrongState [])
      ∧ ∃ t, s.claimedLess t z.order.clip ∧
        let cancelled : State := { t with
          voices := s.voices.set v ⟨g, .cutting y c none⟩
          alc := { s.alc with offerDue := true }
          signals := s.signals ++ [⟨v, z.generation⟩]
          evq := s.noted z.order.noteEnd v z.generation 6 z.owner }
        release = .next (cancelled.replying tag 0xB2 .ok []) ∧ stop = .next (cancelled.replying tag 0xB3 .ok [])

/-- RAMP, RELEASE, STOP, HOLD and CONTINUE on the handle of a sounding start, by the voice's state. -/
def Obligations.OperationsOnASoundingHandle : Prop :=
  (∀ (tag voice g : Byte) (v : Fin 16) (target : Half) (rate scale mode notify : Byte) (k : Scale) (m : RampMode) (s : State),
     s.takesRequests → voice.toNat = v.val → (s.voice v).generation = g → target.toNat ≤ 4095 → rate ≠ 0 →
     k.code = scale → m.code = mode →
     let ramp := exec (.voiceRamp tag voice g target rate scale mode notify) s
     let release := exec (.voiceRelease tag voice g) s
     let body (b : VoiceBody) : State := { s with voices := s.voices.set v ⟨g, b⟩ }
     let set (y : Sounding) : Sounding := { y with
       ramp := some { mode := m, base := y.level, target := target.toNat, rate := rate.toNat, scale := k, sub := 0
                      notify := decide (notify ≠ 0) } }
     let freed (y : Sounding) : Sounding := { y with exit := true }
     let fading (y : Sounding) (q : Release) : Sounding := { y with
       exit := true
       ramp := some { mode := .once, base := y.level, target := 0, rate := q.rate, scale := q.scale, sub := 0
                      notify := false } }
     ∀ y,
       ((s.voice v).body = .playing y → ramp = .next ((body (.playing (set y))).replying tag 0xB1 .ok [])
         ∧ (y.release = none → release = .next ((body (.playing (freed y))).replying tag 0xB2 .ok []))
         ∧ ∀ q, y.release = some q → release = .next ((body (.releasing (fading y q))).replying tag 0xB2 .ok []))
       ∧ ((s.voice v).body = .held y .playing →
         ramp = .next ((body (.held (set y) .playing)).replying tag 0xB1 .ok [])
         ∧ (y.release = none → release = .next ((body (.held (freed y) .playing)).replying tag 0xB2 .ok []))
         ∧ ∀ q, y.release = some q → release = .next ((body (.held (fading y q) .releasing)).replying tag 0xB2 .ok []))
       ∧ ((s.voice v).body = .releasing y ∨ (s.voice v).body = .held y .releasing →
         ramp = .next (s.replying tag 0xB1 .notApplied []) ∧ release = .next (s.replying tag 0xB2 .ok [])))
  ∧ (∀ (tag voice g : Byte) (v : Fin 16) (s : State), s.takesRequests → voice.toNat = v.val → (s.voice v).generation = g →
       let stop := exec (.voiceStop tag voice g) s
       let hold := exec (.voiceHold tag voice g) s
       let goOn := exec (.voiceContinue tag voice g) s
       let body (b : VoiceBody) : State := { s with voices := s.voices.set v ⟨g, b⟩ }
       ∀ y,
         ((s.voice v).body = .playing y ∨ (s.voice v).body = .releasing y →
           stop = .next ((body (.cutting y ⟨32, .stopped, g⟩ none)).replying tag 0xB3 .ok [])
           ∧ goOn = .next (s.replying tag 0xB5 .wrongState []))
         ∧ ((s.voice v).body = .playing y → hold = .next ((body (.held y .playing)).replying tag 0xB4 .ok []))
         ∧ ((s.voice v).body = .releasing y → hold = .next ((body (.held y .releasing)).replying tag 0xB4 .ok []))
         ∧ ∀ from', (s.voice v).body = .held y from' →
           hold = .next (s.replying tag 0xB4 .ok [])
           ∧ goOn = .next ((body (match from' with
               | .playing => .playing y
               | .releasing => .releasing y)).replying tag 0xB5 .ok [])
           ∧ ∃ t, s.claimedLess t y.clip ∧ stop = .next (State.replying
             { t with
               voices := s.voices.set v ⟨g, .free⟩
               alc := { s.alc with age := s.alc.age.erase v, offerDue := true }
               signals := s.signals ++ [⟨v, g⟩]
               evq := s.noted y.noteEnd v g 3 y.owner } tag 0xB3 .ok []))

/-! ### The frame -/

/-- The level law: the gain of a level from 1 up is 65,536 × 2^((L − 4095) / 256) to the nearest whole number, a half upward;
level 0 is silence. Panning: the attenuations of R25, the effective levels, and the two contributions, rounded toward zero. -/
def Obligations.GainAndPanning : Prop :=
  (gain 0 = 0 ∧ gain 1 = 1 ∧ gain 3839 = 32768 ∧ gain 4095 = 65536
   ∧ ∀ L : Nat, 1 ≤ L → L ≤ 4095 →
     (gain L : ℤ) = ⌊(65536 : ℝ) * (2 : ℝ) ^ (((L : ℝ) - 4095) / 256) + 1 / 2⌋
     ∧ 1 ≤ gain L ∧ gain (L - 1) ≤ gain L)
  ∧ ((List.range 16).map attenuation = [some 0, some 2, some 6, some 12, some 20, some 30, some 43, some 58, some 76, some 97,
       some 122, some 152, some 190, some 240, some 320, none]
     ∧ ∀ (sample : Int) (level : Nat) (pan : Fin 16),
       leftLevel level pan = (match attenuation pan.val with
         | none => 0
         | some a => level - a)
       ∧ rightLevel level pan = (match attenuation (15 - pan.val) with
         | none => 0
         | some a => level - a)
       ∧ panned sample level pan = (Int.tdiv (sample * gain (leftLevel level pan)) 65536,
         Int.tdiv (sample * gain (rightLevel level pan)) 65536))

/-- The frame's sample: the values of the three formats, the current sample, its neighbour and the weight by direction and loop (where
a last sample is also the loop end the rows of R4 are taken in their order, the model's choice, log 12). The value between two
samples is rounded toward minus infinity and stays between them. The advance of a start: outside a loop the position moves by
the step and ends at the clip's end; in a loop the crossings of LE and LS are applied one by one (Sounding.crossing, with exits
and counts) until the position stands, and the clip end test is made there; an endless loop keeps the position at or below its
end, and a FORWARD one goes back by whole loop lengths. -/
def Obligations.InterpolationAndAdvance : Prop :=
  (∀ (a b : Int) (w : Nat), w < 4096 →
     let y := interpolate a b w
     4096 * (y - a) ≤ (b - a) * w ∧ (b - a) * w < 4096 * (y - a) + 4096
     ∧ (a ≤ b → a ≤ y ∧ y ≤ b) ∧ (b ≤ a → b ≤ y ∧ y ≤ a) ∧ interpolate a b 0 = a)
  ∧ (∀ (m : Memory) (r : ClipRecord) (i : Nat),
       let at' (k : Nat) : Int := ((Memory.read m (r.base + k)).toNat : Int)
       let signed (n : Int) (bits : Nat) : Int := if n < 2 ^ (bits - 1) then n else n - 2 ^ bits
       (r.format = .s8 → readSample m r i = signed (at' i) 8 * 256)
       ∧ (r.format = .u8 → readSample m r i = (at' i - 128) * 256)
       ∧ (r.format = .s16 → readSample m r i = signed (at' (2 * i) * 256 + at' (2 * i + 1)) 16))
  ∧ (∀ (m : Memory) (r : ClipRecord) (x : Sounding),
       let whole := x.pos / 4096
       let part := x.pos % 4096
       let forward := x.direction = .forward
       let c := if forward ∨ part = 0 then whole else whole + 1
       let w := if forward then part else if part = 0 then 0 else 4096 - part
       let active (l : Loop) : Prop := whole ≤ l.finish ∧ x.exit = false ∧ x.loops ≠ 1
       let between (n : Nat) : Prop := frameSample m r x = interpolate (readSample m r c) (readSample m r n) w
       let alone : Prop := frameSample m r x = readSample m r c
       (forward → c + 1 = r.count → alone)
       ∧ (∀ l, forward → c + 1 ≠ r.count → r.loop = some l → c = l.finish → active l →
           (x.loopMode = .forward → between l.start) ∧ (x.loopMode = .alternate → alone))
       ∧ (forward → c + 1 ≠ r.count → (x.loopMode = .none ∨ ∀ l, r.loop = some l → c ≠ l.finish ∨ ¬active l) →
           between (c + 1))
       ∧ (¬forward → c = 0 → alone)
       ∧ (∀ l, ¬forward → c ≠ 0 → r.loop = some l → x.loopMode = .alternate → c = l.start → alone)
       ∧ (¬forward → c ≠ 0 → (x.loopMode ≠ .alternate ∨ ∀ l, r.loop = some l → c ≠ l.start) → between (c - 1)))
  ∧ (∀ (x : Sounding) (r : ClipRecord) (l : Loop), x.step ≤ 65535 → x.loopMode ≠ .none → r.loop = some l →
       l.start < l.finish → l.finish < r.count → (x.direction = .forward ∨ (x.loopMode = .alternate ∧ l.start * 4096 ≤ x.pos)) →
       let stepped : Int := if x.direction = .forward then x.pos + x.step else x.pos - x.step
       (x.direction = .forward → (l.finish + 1) * 4096 ≤ x.pos →
         x.advance r = if r.count * 4096 ≤ x.pos + x.step then none else some { x with pos := x.pos + x.step })
       ∧ (x.direction = .backward ∨ x.pos < (l.finish + 1) * 4096 →
         ∃ n d k, ∃ p : Int, x.comesTo l n (x.direction, stepped, x.loops) (d, p, k)
           ∧ x.advance r = if (d = .forward ∧ r.count * 4096 ≤ p) ∨ (d = .backward ∧ p < 0) then none
               else some { x with direction := d, pos := p.toNat, loops := k }))
  ∧ (∀ (x : Sounding) (r : ClipRecord), x.step ≤ 65535 →
       (x.loopMode = .none → x.direction = .forward →
         x.advance r = if r.count * 4096 ≤ x.pos + x.step then none else some { x with pos := x.pos + x.step })
       ∧ (x.loopMode = .none → x.direction = .backward →
         x.advance r = if x.pos < x.step then none else some { x with pos := x.pos - x.step })
       ∧ ∀ l : Loop, r.loop = some l → l.start < l.finish → l.finish < r.count → x.exit = false → x.loops = 0 →
         x.pos < (l.finish + 1) * 4096 →
         (x.loopMode = .forward → x.direction = .forward →
           ∃ p, x.advance r = some { x with pos := p } ∧ p < (l.finish + 1) * 4096
             ∧ (p = x.pos + x.step ∨ l.start * 4096 ≤ p)
             ∧ ∃ k, p + k * ((l.finish - l.start + 1) * 4096) = x.pos + x.step)
         ∧ (x.loopMode = .alternate → (x.direction = .backward → l.start * 4096 ≤ x.pos) →
           ∃ p d, x.advance r = some { x with pos := p, direction := d } ∧ p < (l.finish + 1) * 4096
             ∧ (d = .backward → l.start * 4096 ≤ p)))

/-- The frame work of every voice in a frame without a tick: its contributions, which the buses sum; what the frame shows and whether
OUTPUT_CLIPS counts; and what becomes of the voice and of its ramp. A voice that a command has had take the frame already does not
take it again (such a command's place before its frame is the model's choice, log 3). A clip's end, here of the one start that sounds, ends it
with reason CLIP_END: VOICE_END, the claim released, the signal to LNC, the age list, and offer due. -/
def Obligations.FrameWorksEveryVoice : Prop :=
  let towards (rate a b : Nat) : Nat := if a < b then min (a + rate) b else max (a - rate) b
  let ramped (level : Nat) (p : Ramp) : Nat × Option Ramp :=
    if p.sub + 1 < p.scale.frames then (level, some { p with sub := p.sub + 1 })
    else if level = p.target then
      match p.mode with
      | .once => (level, none)
      | .cycle => (p.base, some { p with sub := 0 })
      | .swing => (towards p.rate level p.base, some { p with sub := 0, base := p.target, target := p.base })
    else if p.mode = .once ∧ towards p.rate level p.target = p.target then (p.target, none)
    else (towards p.rate level p.target, some { p with sub := 0 })
  ∀ s : State, s.power = true → s.out.frameSub + 1 < 32 →
    ∃ t, exec .frame s = .next t ∧ t.out.frameSub = s.out.frameSub + 1 ∧ t.progress = Progress.start
      ∧ t.out.shown.busLeft = ((List.finRange 16).map fun v => (t.out.contributions.get v).1).sum
      ∧ t.out.shown.busRight = ((List.finRange 16).map fun v => (t.out.contributions.get v).2).sum
      ∧ t.out.shown = t.out.formed
      ∧ (let l := Int.tdiv (t.out.shown.busLeft * gain t.out.leftMaster) 65536
         let r := Int.tdiv (t.out.shown.busRight * gain t.out.rightMaster) 65536
         let beyond (y : Int) : Prop := y < -32767 ∨ 32767 < y
         let clips : Prop := if t.out.mode = .stereo then beyond l ∨ beyond r else beyond (Int.tdiv (l + r) 2)
         (clips → t.evq.tallies.get 10 = min 65535 (s.evq.tallies.get 10 + 1))
         ∧ (¬clips → t.evq.tallies.get 10 = s.evq.tallies.get 10))
      ∧ (∀ v : Fin 16,
        let now := (t.voice v).body
        let gives := t.out.contributions.get v
        (t.voice v).generation = (s.voice v).generation
        ∧ (v.val < s.progress.voices → now = (s.voice v).body ∧ gives = s.out.contributions.get v)
        ∧ (s.progress.voices ≤ v.val → ((s.voice v).body = .free → gives = (0, 0) ∧ now = .free)
        ∧ (∀ x h, (s.voice v).body = .held x h → gives = (0, 0) ∧ now = .held x h)
        ∧ (∀ x r, (s.voice v).body = .playing x ∨ (s.voice v).body = .releasing x → (s.clip x.clip).record = some r →
            gives = panned (frameSample s.mem r x) x.level x.pan
            ∧ (x.advance r = none → now = .free)
            ∧ ∀ y, x.advance r = some y →
              (x.ramp = none → ((s.voice v).body = .playing x → now = .playing y)
                ∧ ((s.voice v).body = .releasing x → now = .releasing y))
              ∧ ∀ p, x.ramp = some p →
                let z : Sounding := { y with level := (ramped x.level p).1, ramp := (ramped x.level p).2 }
                ((s.voice v).body = .playing x → now = .playing z)
                ∧ ((s.voice v).body = .releasing x → now = if z.ramp = none then .free else .releasing z))
        ∧ (∀ x c z r, (s.voice v).body = .cutting x c z → (s.clip x.clip).record = some r →
            let whole := panned (frameSample s.mem r x) x.level x.pan
            gives = (Int.tdiv (whole.1 * c.framesLeft) 32, Int.tdiv (whole.2 * c.framesLeft) 32)
            ∧ ∀ y, x.advance r = some y → 1 < c.framesLeft →
              now = .cutting y { c with framesLeft := c.framesLeft - 1 } z)))
      ∧ ∀ (v : Fin 16) x r, s.progress.voices ≤ v.val → (s.voice v).body = .playing x ∨ (s.voice v).body = .releasing x →
          (∀ w : Fin 16, w ≠ v → (s.voice w).body = .free) → (s.clip x.clip).record = some r → x.advance r = none →
          let g := (s.voice v).generation
          ∃ u, s.claimedLess u x.clip ∧ t.clips = u.clips ∧ t.sectors = u.sectors ∧ t.voices = s.voices.set v ⟨g, .free⟩
            ∧ t.alc = { s.alc with age := s.alc.age.erase v, offerDue := true } ∧ t.signals = s.signals ++ [⟨v, g⟩]
            ∧ t.evq.queue = (s.noted x.noteEnd v g 1 x.owner).queue ∧ t.evq.lost = (s.noted x.noteEnd v g 1 x.owner).lost

/-- A frame in which no voice stands and no line collects: the mute step, empty buses and middle duties. The frame sub-count rises; at
the 32nd frame it becomes 0 and the frame makes the tick: the millisecond count rises, unless NRST holds it, waits and notices with
time left count down, and so do the holdoffs and the store step. A share of the frame or of its tick that a command has had taken
already is not taken again (such a command's place before its frame is the model's choice, log 3); a lane it has woken and left
RUNNING runs on first, which TickEndsWaitsNoticesAndHoldoffs states. What the mute step makes of a
position that R142 gives the state no step for is the model's choice, log 25. -/
def Obligations.SilentFrame : Prop :=
  ∀ s : State, s.power = true → s.progress.voices = 0 → (∀ v : Fin 16, (s.voice v).body = .free) → s.lnk.rx ≠ .collecting →
    s.trg.rx ≠ .collecting →
    let made : MuteState × Nat := match s.out.mute with
      | .muting => (if s.out.mutePos ≤ 1 then .muted else .muting, s.out.mutePos - 1)
      | .unmuting => (if 255 ≤ s.out.mutePos then .unmuted else .unmuting, min 256 (s.out.mutePos + 1))
      | m => (m, s.out.mutePos)
    let mute := if s.progress.mute then (s.out.mute, s.out.mutePos) else made
    let framed : Out := { s.out with
      mute := mute.1
      mutePos := mute.2
      contributions := Table.const 16 (0, 0)
      shown := { busLeft := 0, busRight := 0, left := 0, right := 0, dutyLeft := 128, dutyRight := 128
                 zone := s.out.deadZone, blank := decide (mute.1 = .muted ∨ mute.2 = 0) } }
    (s.out.frameSub + 1 < 32 → exec .frame s = .next { s with
      out := { framed with frameSub := s.out.frameSub + 1 }, progress := Progress.start })
    ∧ (32 ≤ s.out.frameSub + 1 → (∀ l : Fin 4, s.progress.lanes = l.val + 1 → (s.lane l).state ≠ .running) →
      (∀ l : Fin 4, s.progress.lanes ≤ l.val → (∀ t, (s.lane l).wait = some (.time t) → 1 < t)
        ∧ ∀ n, (∀ t, (s.lane l).wait ≠ some (.time t)) → (s.lane l).notice = some n → 1 < n.msLeft) →
      (s.progress.store = false → ∀ r, s.op = some r → 1 < r.limitLeft) →
      ∃ t, exec .frame s = .next t
        ∧ (∀ l : Fin 4, let x := s.lane l
          t.lane l = if l.val < s.progress.lanes then x else match x.wait, x.notice with
            | some (.time m), _ => { x with wait := some (.time (m - 1)) }
            | _, some n => { x with notice := some { n with msLeft := n.msLeft - 1 } }
            | _, none => x)
        ∧ t = { s with
          out := { framed with
            frameSub := 0
            msCount := if s.progress.count ∨ s.nrst then s.out.msCount else s.out.msCount + 1 }
          lanes := t.lanes
          trg := { s.trg with bindings := if s.progress.holdoffs then s.trg.bindings
            else s.trg.bindings.map fun (b : Binding) => { b with holdoffLeft := b.holdoffLeft - 1 } }
          op := if s.progress.store then s.op
            else s.op.map fun (r : OpRecord) => { r with limitLeft := r.limitLeft - 1 }
          progress := Progress.start })

/-- The mix of a frame from its buses: master levels, mode, limit, mute gain and duties; and the pins in each count of a carrier
period: never both high on one side, and all low in a blank frame. Every step keeps the pins blank while the mute state is MUTED
(R146). -/
def Obligations.MixAndPins : Prop :=
  (∀ o : Out, o.mutePos ≤ 256 →
     let f := o.formed
     let l := Int.tdiv (o.bus.1 * gain o.leftMaster) 65536
     let r := Int.tdiv (o.bus.2 * gain o.rightMaster) 65536
     let clamp (x : Int) : Int := if x < -32767 then -32767 else if 32767 < x then 32767 else x
     let after (x : Int) : Int := Int.tdiv (clamp x * o.mutePos) 256
     (o.mode = .stereo → f.left = after l ∧ f.right = after r)
     ∧ (o.mode = .mono → f.left = after (Int.tdiv (l + r) 2) ∧ f.right = after (Int.tdiv (l + r) 2))
     ∧ (f.dutyLeft : Int) = 128 + Int.fdiv f.left 256 ∧ (f.dutyRight : Int) = 128 + Int.fdiv f.right 256
     ∧ f.dutyLeft ≤ 255 ∧ f.dutyRight ≤ 255 ∧ f.zone = o.deadZone
     ∧ (o.mute = .muted → f.blank = true))
  ∧ (∀ (f : FrameOut) (n : Nat), n ≤ 255 → f.dutyLeft ≤ 255 → f.dutyRight ≤ 255 → f.zone ≤ 15 →
       let p := f.pins n
       (f.blank = true → p = (false, false, false, false))
       ∧ (f.blank = false →
         (p.1 = true ↔ f.zone ≤ n ∧ n < f.dutyLeft) ∧ (p.2.1 = true ↔ f.dutyLeft + f.zone ≤ n)
         ∧ (p.2.2.1 = true ↔ f.zone ≤ n ∧ n < f.dutyRight) ∧ (p.2.2.2 = true ↔ f.dutyRight + f.zone ≤ n))
       ∧ ¬(p.1 = true ∧ p.2.1 = true) ∧ ¬(p.2.2.1 = true ∧ p.2.2.2 = true))
  ∧ (∀ s t : State, (s.out.mute = .muted → s.out.shown.blank = true) → step s = .next t →
       t.out.mute = .muted → t.out.shown.blank = true)

/-- A move instant of a ramp in the coming frame (the command's place before its frame is the model's choice, log 3): what it
makes of the level and the ramp by the mode, in PLAYING and in RELEASING, and the RAMP_DONE of an arrival with notify. The
arrival of a RELEASING start's ramp ends the start with reason RELEASED. -/
def Obligations.RampMoveInstantByMode : Prop :=
  ∀ (v : Fin 16) (x y : Sounding) (r : ClipRecord) (p : Ramp) (s : State), s.power = true → s.progress.voices = v.val →
    (s.voice v).body = .playing x ∨ (s.voice v).body = .releasing x → (s.clip x.clip).record = some r →
    x.advance r = some y → x.ramp = some p →
    let g := (s.voice v).generation
    let towards (from' to' : Nat) : Nat :=
      if from' < to' then min (from' + p.rate) to' else max (from' - p.rate) to'
    let worked (u : State) (e : Evq) : State :=
      { u with
        out := { s.out with contributions := s.out.contributions.set v (panned (frameSample s.mem r x) x.level x.pan) }
        progress := { s.progress with voices := v.val + 1 }
        evq := e }
    let becomes (level : Nat) (ramp : Option Ramp) (e : Evq) : State :=
      let z : Sounding := { y with level := level, ramp := ramp }
      worked { s with voices := s.voices.set v ⟨g, match (s.voice v).body with
        | .releasing _ => .releasing z
        | _ => .playing z⟩ } e
    let arrived : State := if p.notify then
        s.post .rampDone v.val g 0 (eventValue (BitVec.ofNat 8 (p.target / 256)) (BitVec.ofNat 8 p.target) x.owner.code 0)
      else s
    let arrives : Prop := p.mode = .once ∧ (x.level = p.target ∨ towards x.level p.target = p.target)
    let run := exec (.rampMoveInstant v) s
    (p.sub + 1 < p.scale.frames → run = .next s)
    ∧ (p.scale.frames ≤ p.sub + 1 →
      (x.level ≠ p.target → (p.mode ≠ .once ∨ towards x.level p.target ≠ p.target) →
        run = .next (becomes (towards x.level p.target) (some { p with sub := 0 }) s.evq))
      ∧ (arrives → (s.voice v).body = .playing x → run = .next (becomes p.target none arrived.evq))
      ∧ (arrives → (s.voice v).body = .releasing x →
        ∃ t, s.claimedLess t x.clip ∧ run = .next (worked
          { t with
            voices := s.voices.set v ⟨g, .free⟩
            alc := { s.alc with age := s.alc.age.erase v, offerDue := true }
            signals := s.signals ++ [⟨v, g⟩] } (arrived.noted x.noteEnd v g 2 x.owner)))
      ∧ (x.level = p.target → p.mode = .cycle → run = .next (becomes p.base (some { p with sub := 0 }) s.evq))
      ∧ (x.level = p.target → p.mode = .swing → run = .next (becomes (towards x.level p.base)
          (some { p with sub := 0, base := p.target, target := p.base }) s.evq)))

/-- A cut completes in the coming frame (the command's place before its frame is the model's choice, log 3), by its last frame or
by an early end of the clip: the cut start ends, and the voice becomes FREE or its successor begins. -/
def Obligations.CutCompletes : Prop :=
  ∀ (v : Fin 16) (x : Sounding) (c : Cut) (r : ClipRecord) (s : State), s.power = true → s.progress.voices = v.val →
    (s.clip x.clip).record = some r →
    let g := (s.voice v).generation
    let whole := panned (frameSample s.mem r x) x.level x.pan
    let run := exec (.cutComplete v) s
    let ended (t : State) : State := { t with
      out := { s.out with
        contributions := s.out.contributions.set v
          (Int.tdiv (whole.1 * c.framesLeft) 32, Int.tdiv (whole.2 * c.framesLeft) 32) }
      progress := { s.progress with voices := v.val + 1 }
      evq := s.noted x.noteEnd v c.generation c.reason.endReason.code x.owner }
    (∀ z y, (s.voice v).body = .cutting x c z → x.advance r = some y → 1 < c.framesLeft → run = .next s)
    ∧ (c.framesLeft ≤ 1 ∨ x.advance r = none →
      ((s.voice v).body = .cutting x c none →
        ∃ t, s.claimedLess t x.clip ∧ run = .next { ended t with
          voices := s.voices.set v ⟨g, .free⟩
          alc := { s.alc with age := s.alc.age.erase v, offerDue := true }
          signals := if c.generation = g then s.signals ++ [⟨v, g⟩] else s.signals })
      ∧ ∀ z q, (s.voice v).body = .cutting x c (some z) → (s.clip z.order.clip).record = some q →
        ∃ t, s.claimedLess t x.clip ∧ run = .next { ended t with
          voices := s.voices.set v ⟨g, .playing (z.order.begin z.owner q)⟩ })

/-! ### The output settings and the mute ramp -/

/-- OUTPUT SET: its checks, and the settings taken at once with the mute request by the mute state; the reply carries the mute
state and position. The mute ramp ends in the coming frame, and where that brings MUTED the pins are blank (that command's place before its frame is the model's choice,
log 3; so are the ends from a position that R142 gives the state no step for, log 25). -/
def Obligations.OutputSetAndTheMuteRamp : Prop :=
  (∀ (tag mode : Byte) (left right : Half) (mute zone : Byte) (s : State), s.takesRequests →
     let bad : Option Byte :=
       if 1 < mode.toNat then some 0
       else if 4095 < left.toNat then some 1
       else if 4095 < right.toNat then some 3
       else if 1 < mute.toNat then some 5
       else if 15 < zone.toNat then some 6
       else none
     let asked : MuteState := if mute = 1 then (if s.out.mute = .muted then .muted else .muting)
       else if s.out.mute = .unmuted then .unmuted else .unmuting
     let code : Byte := match asked with
       | .unmuted => 0
       | .muting => 1
       | .muted => 2
       | .unmuting => 3
     (∀ k, bad = some k → exec (.outputSet tag mode left right mute zone) s = .next (s.replying tag 0xC0 .badField [k]))
     ∧ (bad = none → s.commitInFlight = true →
       exec (.outputSet tag mode left right mute zone) s = .next (s.replying tag 0xC0 .busy []))
     ∧ (bad = none → s.commitInFlight = false →
       exec (.outputSet tag mode left right mute zone) s = .next (State.replying
         { s with out := { s.out with
             mode := if mode = 0 then .stereo else .mono
             leftMaster := left.toNat
             rightMaster := right.toNat
             deadZone := zone.toNat
             mute := asked } }
         tag 0xC0 .ok [code, BitVec.ofNat 8 (s.out.mutePos / 256), BitVec.ofNat 8 s.out.mutePos])))
  ∧ (∀ s : State, s.power = true → s.progress.mute = false →
       let run := exec .muteRampEnd s
       let made (m : MuteState) (pos : Nat) : State :=
         { s with out := { s.out with mute := m, mutePos := pos }, progress := { s.progress with mute := true } }
       let silenced := made .muted 0
       (s.out.mute = .muting → s.out.mutePos ≤ 1 → run = .next { silenced with
         out := { silenced.out with shown := { s.out.shown with blank := true } } })
       ∧ (s.out.mute = .unmuting → 255 ≤ s.out.mutePos → run = .next (made .unmuted 256))
       ∧ (s.out.mute = .muted ∨ s.out.mute = .unmuted ∨ (s.out.mute = .muting ∧ 1 < s.out.mutePos)
           ∨ (s.out.mute = .unmuting ∧ s.out.mutePos < 255) → run = .next s))

/-! ### The tick -/

/-- The tick of the 32nd frame (the command's place before the rest of its frame is the model's choice, log 3): the
millisecond count rises, unless NRST holds it, waits and notices with time left count down, and so do the holdoffs and the
store step. -/
def Obligations.TickCountsEverythingDown : Prop :=
  ∀ s : State, s.power = true → s.progress.count = false → s.progress.lanes = 0 → s.progress.holdoffs = false →
    s.progress.store = false →
    (s.out.frameSub + 1 < 32 → exec .msTick s = .next s)
    ∧ (32 ≤ s.out.frameSub + 1 →
      (∀ l : Fin 4, (∀ t, (s.lane l).wait = some (.time t) → 1 < t)
        ∧ ∀ n, (∀ t, (s.lane l).wait ≠ some (.time t)) → (s.lane l).notice = some n → 1 < n.msLeft) →
      (∀ r, s.op = some r → 1 < r.limitLeft) →
      exec .msTick s = .next { s with
        out := { s.out with msCount := if s.nrst then s.out.msCount else s.out.msCount + 1 }
        lanes := s.lanes.map fun (x : Lane) => match x.wait, x.notice with
          | some (.time t), _ => { x with wait := some (.time (t - 1)) }
          | _, some n => { x with notice := some { n with msLeft := n.msLeft - 1 } }
          | _, none => x
        trg := { s.trg with
          bindings := s.trg.bindings.map fun (b : Binding) => { b with holdoffLeft := b.holdoffLeft - 1 } }
        op := s.op.map fun (r : OpRecord) => { r with limitLeft := r.limitLeft - 1 }
        progress := { s.progress with count := true, lanes := 4, holdoffs := true, store := true } })

/-- A TIME wait, a held notice and a holdoff that end at the coming tick (the commands' place before the rest of their tick is
the model's choice, log 3): the wait's block completes, here toward an EMPTY slot; the notice is posted; TRG counts every
holdoff down. The tick that the 32nd frame makes ends the wait or the notice as well. Where a lane behind the woken one is in a TIME
wait or holds a notice, the woken one, here at a WAIT_TIME block, has run on before that lane is taken, whatever the free choice of
openings: it stands at the end of the tick. -/
def Obligations.TickEndsWaitsNoticesAndHoldoffs : Prop :=
  (∀ (l : Fin 4) (s : State), s.power = true → s.out.frameSub = 31 → s.progress.count = false → s.nrst = false →
     s.progress.lanes = l.val → (∀ j : Fin 4, (s.lane j).state ≠ .running) →
     let x := s.lane l
     let counted : State := { s with
       out := { s.out with msCount := s.out.msCount + 1 }
       progress := { s.progress with count := true, lanes := l.val + 1 } }
     let onlyCount : Prop := ∀ j : Fin 4, l < j → (∀ t, (s.lane j).wait = some (.time t) → 1 < t)
       ∧ ∀ n, (∀ t, (s.lane j).wait ≠ some (.time t)) → (s.lane j).notice = some n → 1 < n.msLeft
     let atFrame (y : Lane) : Prop := onlyCount → ∃ u, exec .frame s = .next u ∧ u.lane l = y
     (∀ t k b, x.wait = some (.time t) → t ≤ 1 → x.slot = some k → s.cues.get k = some b → b.note = false →
       b.pause = false → b.last = false → x.pauseRequested = false → s.cues.get b.link = none →
       let y : Lane := { x with state := .starved, wait := none, slot := some b.link, budget := 0 }
       exec (.waitTimeExpiry l) s = .next { counted with lanes := s.lanes.set l y } ∧ atFrame y)
     ∧ (∀ (t m : Nat) k b c (j : Fin 4), x.wait = some (.time t) → t ≤ 1 → x.slot = some k → s.cues.get k = some b →
       b.note = false → b.pause = false → b.last = false → x.pauseRequested = false → s.cues.get b.link = some c →
       c.op = .waitTime m → l < j → (∃ r, (s.lane j).wait = some (.time r)) ∨ (s.lane j).notice ≠ none → onlyCount →
       let y : Lane := { x with state := .waiting, wait := some (.time m), slot := some b.link, budget := 0 }
       (∃ u, exec .msTick s = .next u ∧ u.lane l = y ∧ u.openings = s.openings)
       ∧ (∃ u, exec .frame s = .next u ∧ u.lane l = y ∧ u.openings = s.openings)
       ∧ ∃ u, execAll [.waitTimeExpiry l, .frame] s = .next u ∧ u.lane l = y ∧ u.openings = s.openings.tail)
     ∧ ((∀ t, x.wait = some (.time t) → 1 < t) → exec (.waitTimeExpiry l) s = .next s)
     ∧ (∀ n, x.wait = none → x.notice = some n → n.msLeft ≤ 1 →
       exec (.heldNoticeExpiry l) s = .next { (counted.post .laneIdle l.val 0 n.reason.code
           (eventValue (BitVec.ofNat 8 n.slot.val) 0 (originCode x.origin) (originBinding x.origin))) with
         lanes := s.lanes.set l { x with notice := none } } ∧ atFrame { x with notice := none })
     ∧ (x.notice = none → exec (.heldNoticeExpiry l) s = .next s))
  ∧ (∀ (i : Fin 32) (s : State), s.power = true → s.progress.holdoffs = false → s.progress.count = false → s.nrst = false →
       ((s.binding i).holdoffLeft = 1 → s.out.frameSub = 31 →
         ∃ t, exec (.holdoffExpiry i) s = .next t ∧ (t.binding i).holdoffLeft = 0
           ∧ (∀ j : Fin 32, t.binding j = { s.binding j with holdoffLeft := (s.binding j).holdoffLeft - 1 })
           ∧ t = { s with
               trg := { s.trg with bindings := t.trg.bindings }
               out := { s.out with msCount := s.out.msCount + 1 }
               progress := { s.progress with count := true, holdoffs := true } })
       ∧ ((s.binding i).holdoffLeft ≠ 1 ∨ s.out.frameSub + 1 < 32 → exec (.holdoffExpiry i) s = .next s))

/-! ### The trigger line -/

/-- A frame lowers the gap count of a receiver that collects, while no start bit has begun. Where the count runs out with the
coming frame, what the receiver held is discarded and a tally counts it; where no gap ends there, nothing happens (the commands'
place before their frame is the model's choice, log 3). A receiver that has counted the frame already does not count it again. -/
def Obligations.GapCountsRunOut : Prop :=
  (∀ s : State, s.power = true →
    (s.progress.hostGap = false →
      (s.lnk.rx = .collecting → s.lnk.reception = .idle → s.lnk.gap ≤ 1 →
        exec .hostGapTimeout s = .next { (State.counted { s with
            lnk := { s.lnk with rx := .hunting, bytes := [], frameLength := none, gap := 0 } } 1) with
          progress := { s.progress with hostGap := true } })
      ∧ (s.lnk.rx ≠ .collecting ∨ s.lnk.reception ≠ .idle ∨ 1 < s.lnk.gap → exec .hostGapTimeout s = .next s))
    ∧ (s.progress.trigGap = false →
      (s.trg.rx = .collecting → s.trg.reception = .idle → s.trg.gap ≤ 1 →
        exec .trigGapTimeout s = .next { (State.counted { s with
            trg := { s.trg with rx := .hunting, bytes := [], gap := 0 } } 4) with
          progress := { s.progress with trigGap := true } })
      ∧ (s.trg.rx ≠ .collecting ∨ s.trg.reception ≠ .idle ∨ 1 < s.trg.gap → exec .trigGapTimeout s = .next s)))
  ∧ (∀ s : State, s.power = true → s.out.frameSub + 1 < 32 →
      let hostCounts := s.progress.hostGap = false ∧ s.lnk.rx = .collecting ∧ s.lnk.reception = .idle
      let trigCounts := s.progress.trigGap = false ∧ s.trg.rx = .collecting ∧ s.trg.reception = .idle
      ∃ t, exec .frame s = .next t
        ∧ (hostCounts → 1 < s.lnk.gap → t.lnk = { s.lnk with gap := s.lnk.gap - 1 })
        ∧ (hostCounts → s.lnk.gap ≤ 1 →
            t.lnk = { s.lnk with rx := .hunting, bytes := [], frameLength := none, gap := 0 }
            ∧ t.evq.tallies.get 1 = min 65535 (s.evq.tallies.get 1 + 1))
        ∧ (¬hostCounts → t.lnk = s.lnk ∧ t.evq.tallies.get 1 = s.evq.tallies.get 1)
        ∧ (trigCounts → 1 < s.trg.gap → t.trg = { s.trg with gap := s.trg.gap - 1 })
        ∧ (trigCounts → s.trg.gap ≤ 1 →
            t.trg = { s.trg with rx := .hunting, bytes := [], gap := 0 }
            ∧ t.evq.tallies.get 4 = min 65535 (s.evq.tallies.get 4 + 1))
        ∧ (¬trigCounts → t.trg = s.trg ∧ t.evq.tallies.get 4 = s.evq.tallies.get 4))

/-- A completed trigger frame: a bad CRC is counted; a code that its filter stops goes no further; a code that no lane waits
on and no binding matches is counted, and reported by the report setting. -/
def Obligations.TriggerFrameChecksAndReports : Prop :=
  ∀ (c : Code) (e last : Byte) (s : State), s.trg.rx = .collecting → s.trg.reception ≠ .dropped →
    s.trg.bytes = codeBytes c ++ [e] →
    let run := exec (.triggerFrameComplete last) s
    let hunting : State := { s with trg := { s.trg with rx := .hunting, bytes := [], gap := 0, reception := .idle } }
    let good := halfBytes (crc16 (codeBytes c)) = [e, last]
    let stopped := s.trg.filterList ≠ [] ∧ ∀ k : Fin 64, k.val = e.toNat / 4 → s.trg.filterTable.get k = false
    let quiet := (∀ l : Fin 4, (s.lane l).wait ≠ some (.code c))
      ∧ ∀ i : Fin 32, (s.binding i).enabled = true → (s.binding i).code ≠ c
    (¬good → run = .next (hunting.counted 3))
    ∧ (good → stopped → run = .next hunting)
    ∧ (good → ¬stopped → quiet →
      (s.trg.report = .nothing → run = .next (hunting.counted 5))
      ∧ (s.trg.report = .unbound → run = .next ((hunting.counted 5).post .trigger 0 0 1 c))
      ∧ (s.trg.report = .all → run = .next ((hunting.post .trigger 0 0 0 c).counted 5)))

/-- A routed code with no lane waiting on it. One binding on it: the holdoff, the start of an idle lane (here at an EMPTY entry
slot), and the busy policies IGNORE, QUEUE and RESTART, which stops the handles' starts and posts no notice. Two bindings on it
act in ascending number: on two idle lanes both start; on one lane the second finds it busy with the first's run. -/
def Obligations.BindingActsOnItsCode : Prop :=
  ∀ (c : Code) (e last : Byte) (s : State), s.trg.rx = .collecting → s.trg.reception ≠ .dropped →
    s.trg.bytes = codeBytes c ++ [e] →
    halfBytes (crc16 (codeBytes c)) = [e, last] → s.trg.filterList = [] → s.trg.report = .nothing →
    (∀ l : Fin 4, (s.lane l).wait ≠ some (.code c)) →
    let run := exec (.triggerFrameComplete last) s
    let hunts (bindings : Table Binding 32) : State := { s with trg := { s.trg with
      rx := .hunting, bytes := [], gap := 0, reception := .idle, bindings } }
    let loaded (i : Fin 32) : Binding := { s.binding i with holdoffLeft := (s.binding i).holdoff * 10 }
    let started (i : Fin 32) (handles : Table (Option Handle) 4) : Lane :=
      { state := .starved, slot := some (s.binding i).entry, origin := some (.binding i)
        handles := if (s.binding i).clear then Table.const 4 none else handles
        rep := none, wait := none, pauseRequested := false, budget := 0, notice := none, pendingStart := none
        fault := none }
    let stopAt (handles : Table (Option Handle) 4) (h : Fin 4) (u : State) : State := match handles.get h with
      | none => u
      | some k => (u.opStop k).2
    let cut (handles : Table (Option Handle) 4) (u : State) : State :=
      stopAt handles 3 (stopAt handles 2 (stopAt handles 1 (stopAt handles 0 u)))
    (∀ i : Fin 32, (∀ j : Fin 32, (s.binding j).enabled = true ∧ (s.binding j).code = c ↔ j = i) →
      let b := s.binding i
      let x := s.lane b.lane
      let acted := hunts (s.trg.bindings.set i (loaded i))
      (0 < b.holdoffLeft → run = .next ((hunts s.trg.bindings).counted 6))
      ∧ (b.holdoffLeft = 0 → x.state = .idle ∨ x.state = .faulted → s.cues.get b.entry = none →
        run = .next { acted with lanes := s.lanes.set b.lane (started i x.handles) })
      ∧ (b.holdoffLeft = 0 → x.state ≠ .idle → x.state ≠ .faulted →
        (b.policy = .ignore → run = .next (acted.counted 6))
        ∧ (b.policy = .queue → x.pendingStart.isSome = true → run = .next (acted.counted 6))
        ∧ (b.policy = .queue → x.pendingStart = none → run = .next { acted with
            lanes := s.lanes.set b.lane { x with pendingStart := some ⟨i, b.entry, b.clear⟩ } })
        ∧ (b.policy = .restart → s.cues.get b.entry = none → run = .next { cut x.handles acted with
            lanes := s.lanes.set b.lane (started i x.handles) })))
    ∧ ∀ i j : Fin 32, i < j → (∀ n : Fin 32, (s.binding n).enabled = true ∧ (s.binding n).code = c ↔ n = i ∨ n = j) →
      let b := s.binding i
      let d := s.binding j
      let x := s.lane b.lane
      let acted := hunts ((s.trg.bindings.set i (loaded i)).set j (loaded j))
      let first := started i x.handles
      b.holdoffLeft = 0 → d.holdoffLeft = 0 → x.state = .idle ∨ x.state = .faulted → s.cues.get b.entry = none →
      (d.lane ≠ b.lane → (s.lane d.lane).state = .idle ∨ (s.lane d.lane).state = .faulted → s.cues.get d.entry = none →
        run = .next { acted with
          lanes := (s.lanes.set b.lane first).set d.lane (started j (s.lane d.lane).handles) })
      ∧ (d.lane = b.lane →
        (d.policy = .ignore → run = .next (State.counted { acted with lanes := s.lanes.set b.lane first } 6))
        ∧ (d.policy = .queue → run = .next { acted with
            lanes := s.lanes.set b.lane { first with pendingStart := some ⟨j, d.entry, d.clear⟩ } })
        ∧ (d.policy = .restart → s.cues.get d.entry = none → run = .next { cut first.handles acted with
            lanes := s.lanes.set b.lane (started j first.handles) }))

/-- FILTER SET, TRIGGER SET, BIND SET, BIND CLEAR and BIND READ: their checks in their order; the filter list with its marks,
counted in the reply; a new rate restarts the receiver and drops a byte in reception, and the same rate leaves it alone; and the
binding record. -/
def Obligations.TriggerAndBindingRequests : Prop :=
  (∀ (tag count : Byte) (codes : List Code) (s : State), s.takesRequests →
     let run := exec (.filterSet tag count codes) s
     (codes.length ≠ count.toNat → run = .next (s.replying tag 0xB8 .badLength []))
     ∧ (codes.length = count.toNat → 32 < count.toNat → run = .next (s.replying tag 0xB8 .badField [0]))
     ∧ (codes.length = count.toNat → count.toNat ≤ 32 → s.commitInFlight = true →
       run = .next (s.replying tag 0xB8 .busy []))
     ∧ (codes.length = count.toNat → count.toNat ≤ 32 → s.commitInFlight = false →
       ∃ table : Table Bool 64,
         (∀ k : Fin 64, table.get k = true ↔ ∃ c ∈ codes, k.val = (crc16 (codeBytes c)).toNat / 1024)
         ∧ run = .next (State.replying
           { s with trg := { s.trg with filterList := codes, filterTable := table } }
           tag 0xB8 .ok [BitVec.ofNat 8 (table.cells.count true)])))
  ∧ (∀ (tag rate report : Byte) (s : State), s.takesRequests →
       let run := exec (.triggerSet tag rate report) s
       (2 < rate.toNat → run = .next (s.replying tag 0xBC .badField [0]))
       ∧ (rate.toNat ≤ 2 → 2 < report.toNat → run = .next (s.replying tag 0xBC .badField [1]))
       ∧ ∀ (r : TrigRate) (p : Report), r.code = rate → p.code = report →
         (s.commitInFlight = true → run = .next (s.replying tag 0xBC .busy []))
         ∧ (s.commitInFlight = false → run = .next (State.replying
             { s with trg := if r = s.trg.rate then { s.trg with report := p }
               else { s.trg with rate := r, report := p, rx := .hunting, bytes := [], gap := 0
                                 reception := if s.trg.reception = .idle then .idle else .dropped } } tag 0xBC .ok [])))
  ∧ (∀ (tag : Byte) (w : BindingWire) (s : State), s.takesRequests →
       let set := exec (.bindSet tag w) s
       let clear := exec (.bindClear tag w.binding) s
       let read := exec (.bindRead tag w.binding) s
       (31 < w.binding.toNat → set = .next (s.replying tag 0xB9 .badField [0])
         ∧ clear = .next (s.replying tag 0xBA .badField [0]) ∧ read = .next (s.replying tag 0xBB .badField [0]))
       ∧ ∀ i : Fin 32, w.binding.toNat = i.val →
         let b := s.binding i
         let bind (x : Binding) : State := { s with trg := { s.trg with bindings := s.trg.bindings.set i x } }
         (3 < w.lane.toNat → set = .next (s.replying tag 0xB9 .badField [6]))
         ∧ (w.lane.toNat ≤ 3 → 2 < w.policy.toNat → set = .next (s.replying tag 0xB9 .badField [9]))
         ∧ (∀ (l : Fin 4) (p : BusyPolicy), w.lane.toNat = l.val → p.code = w.policy →
           (s.commitInFlight = true → set = .next (s.replying tag 0xB9 .busy []))
           ∧ (s.commitInFlight = false → set = .next ((bind
               { enabled := decide (w.enabled ≠ 0), code := w.code, lane := l, entry := w.entry.toFin
                 clear := decide (w.clear ≠ 0), policy := p, holdoff := w.holdoff.toNat, holdoffLeft := 0 }).replying
               tag 0xB9 .ok [])))
         ∧ (s.commitInFlight = true → clear = .next (s.replying tag 0xBA .busy []))
         ∧ (s.commitInFlight = false →
           clear = .next ((bind { b with enabled := false, holdoffLeft := 0 }).replying tag 0xBA .ok []))
         ∧ read = .next (s.replying tag 0xBB .ok ([w.binding, if b.enabled then 1 else 0] ++ codeBytes b.code
             ++ [BitVec.ofNat 8 b.lane.val, BitVec.ofNat 8 b.entry.val, if b.clear then 1 else 0, b.policy.code,
               BitVec.ofNat 8 b.holdoff, BitVec.ofNat 8 (b.holdoffLeft / 256), BitVec.ofNat 8 b.holdoffLeft])))

/-! ### Events and tallies -/

/-- A record posted: accepted at the tail with the millisecond count and the lost counter, or dropped with both counts
raised; ATTN is low exactly while a record stands in the queue. -/
def Obligations.PostingAcceptsOrDrops : Prop :=
  ∀ (kind : EventKind) (subject : Nat) (generation reason : Byte) (value : BitVec 32) (s : State),
    let t := s.post kind subject generation reason value
    (s.evq.queue.length < 64 → t = { s with evq := { s.evq with
      queue := s.evq.queue ++ [⟨kind, subject, generation, reason, value, s.out.msCount, s.evq.lost⟩], lost := 0 } })
    ∧ (64 ≤ s.evq.queue.length → t = { (s.counted 7) with
        evq := { (s.counted 7).evq with lost := min 255 (s.evq.lost + 1) } })
    ∧ (s.attnHigh = true ↔ s.evq.queue = [])

/-- EVENT READ: the held notices are posted first, L0 first; the oldest records, up to its count, are removed and answered with
what is left. TALLY READ answers the eleven tallies, most significant byte first, and clears them on request. -/
def Obligations.EventReadAndTallyRead : Prop :=
  ∀ (tag count : Byte) (s : State), s.takesRequests →
    let tallies := (List.finRange 11).flatMap fun i =>
      [BitVec.ofNat 8 (s.evq.tallies.get i / 256), BitVec.ofNat 8 (s.evq.tallies.get i)]
    let reading (u : State) : State := State.replying
      { u with evq := { u.evq with queue := u.evq.queue.drop count.toNat } } tag 0xC8 .ok
      (BitVec.ofNat 8 (min count.toNat u.evq.queue.length) :: (u.evq.queue.take count.toNat).flatMap eventBytes
        ++ [BitVec.ofNat 8 (u.evq.queue.length - count.toNat), BitVec.ofNat 8 u.evq.lost])
    let release (u : State) (l : Fin 4) : State := match (s.lane l).notice with
      | none => u
      | some n => { (u.post .laneIdle l.val 0 n.reason.code
          (eventValue (BitVec.ofNat 8 n.slot.val) 0 (originCode (s.lane l).origin) (originBinding (s.lane l).origin))) with
        lanes := u.lanes.set l { s.lane l with notice := none } }
    (count.toNat = 0 ∨ 8 < count.toNat → exec (.eventRead tag count) s = .next (s.replying tag 0xC8 .badField [0]))
    ∧ (1 ≤ count.toNat → count.toNat ≤ 8 →
      exec (.eventRead tag count) s = .next (reading (release (release (release (release s 0) 1) 2) 3)))
    ∧ (1 < count.toNat → exec (.tallyRead tag count) s = .next (s.replying tag 0xC9 .badField [0]))
    ∧ (count = 0 → exec (.tallyRead tag count) s = .next (s.replying tag 0xC9 .ok tallies))
    ∧ (count = 1 → exec (.tallyRead tag count) s = .next (State.replying
        { s with evq := { s.evq with tallies := Table.const 11 0 } } tag 0xC9 .ok tallies))

/-! ### Invariants -/

/-- Every step keeps the canonical form of the store's bytes, and the busy mark on the sector of the step in progress and nowhere
else. -/
def Obligations.StepKeepsTheStoreInOrder : Prop :=
  (∀ s t : State, Memory.wf s.mem = true → step s = .next t → Memory.wf t.mem = true)
  ∧ (∀ s t : State, s.busyLaw → step s = .next t → t.busyLaw)

/-- Every step keeps the bounds of the event queue, the lost counter and the tallies, and the filter table built from the filter
list. -/
def Obligations.StepKeepsQueueBoundsAndFilterTable : Prop :=
  (∀ s t : State, s.evq.bounded → step s = .next t → t.evq.bounded)
  ∧ (∀ s t : State, s.trg.filterLaw → step s = .next t → t.trg.filterLaw)

/-- Every step keeps the law of the age list: the voices that are not FREE, each once. -/
def Obligations.StepKeepsTheAgeLaw : Prop :=
  ∀ s t : State, s.ageLaw → step s = .next t → t.ageLaw

/-- Every step keeps each lane's fields to those of its state. -/
def Obligations.StepKeepsTheLanesLawful : Prop :=
  ∀ s t : State, s.lanesLawful → step s = .next t → t.lanesLawful

/-- Every step keeps the use counts equal to the claims that stand; and it keeps a part that has still to load its setup area, or has
no power, with every voice FREE, every lane IDLE, both receivers OFF, no retry standing, no reply owed and no autostart entry due.
The spec gives such values for a part that has still to load (R22, R97, R115, R171); that a part without power holds them too is the
model's choice (log 16). -/
def Obligations.StepKeepsTheClaimsCounted : Prop :=
  ∀ s t : State, s.useLaw → s.coldLaw → step s = .next t → t.useLaw ∧ t.coldLaw

/-- The laws that every step keeps hold at State.reset. -/
def Obligations.LawsHoldAtReset : Prop :=
  Memory.wf State.reset.mem = true ∧ State.reset.evq.bounded ∧ State.reset.ageLaw ∧ State.reset.trg.filterLaw
  ∧ State.reset.busyLaw ∧ State.reset.lanesLawful ∧ State.reset.useLaw ∧ State.reset.coldLaw
end

