-- ==== Sys2Proof/Laws/Table.lean ====
section
/-! SUPPORT. What reading a table gives after each way of making one. -/

namespace Sys2Proof.Table

variable {α β : Type} {n : Nat}

theorem get_eq_getElem (t : Table α n) (i : Fin n) :
    t.get i = t.cells[i.val]'(by rw [t.size_eq]; exact i.isLt) := rfl

/-- Two tables that read the same everywhere are equal. -/
theorem ext_get {a b : Table α n} (h : ∀ i, a.get i = b.get i) : a = b := by
  obtain ⟨x, hx⟩ := a
  obtain ⟨y, hy⟩ := b
  have : x = y := by
    apply List.ext_getElem (by rw [hx, hy])
    intro i h₁ _
    exact h ⟨i, by rw [← hx]; exact h₁⟩
  subst this
  rfl

@[simp] theorem get_set_self (t : Table α n) (i : Fin n) (x : α) : (t.set i x).get i = x := by
  simp [get_eq_getElem, set]

theorem get_set_of_ne (t : Table α n) {i j : Fin n} (h : i ≠ j) (x : α) : (t.set i x).get j = t.get j := by
  have : i.val ≠ j.val := fun e => h (Fin.ext e)
  simp [get_eq_getElem, set, List.getElem_set_ne this]

theorem get_set (t : Table α n) (i j : Fin n) (x : α) : (t.set i x).get j = if i = j then x else t.get j := by
  by_cases h : i = j
  · subst h; simp
  · rw [if_neg h, get_set_of_ne t h]

@[simp] theorem set_get_self (t : Table α n) (i : Fin n) : t.set i (t.get i) = t := by
  apply ext_get
  intro j
  rw [get_set]
  split
  · next h => rw [h]
  · rfl

@[simp] theorem set_set_self (t : Table α n) (i : Fin n) (x y : α) : (t.set i x).set i y = t.set i y := by
  apply ext_get
  intro j
  simp only [get_set]
  split <;> rfl

theorem set_comm (t : Table α n) {i j : Fin n} (h : i ≠ j) (x y : α) : (t.set i x).set j y = (t.set j y).set i x := by
  apply ext_get
  intro k
  simp only [get_set]
  by_cases hj : j = k
  · subst hj; simp [h]
  · simp [hj]

@[simp] theorem get_const (i : Fin n) (x : α) : (const n x).get i = x := by
  simp [get_eq_getElem, const]

@[simp] theorem get_map (f : α → β) (t : Table α n) (i : Fin n) : (t.map f).get i = f (t.get i) := by
  simp [get_eq_getElem, map]

theorem getElem_mapFrom (f : Nat → α → β) (k : Nat) (l : List α) (i : Nat) (h : i < (mapFrom f k l).length) :
    (mapFrom f k l)[i] = f (k + i) (l[i]'(by rw [length_mapFrom] at h; exact h)) := by
  induction l generalizing k i with
  | nil => simp [mapFrom] at h
  | cons x xs ih =>
    cases i with
    | zero => simp [mapFrom]
    | succ i =>
      simp only [mapFrom, List.getElem_cons_succ]
      rw [ih]
      congr 1
      omega

@[simp] theorem get_mapIdx (f : Nat → α → β) (t : Table α n) (i : Fin n) :
    (t.mapIdx f).get i = f i.val (t.get i) := by
  simp only [get_eq_getElem, mapIdx, getElem_mapFrom, Nat.zero_add]

theorem anyFrom_iff (p : Nat → α → Bool) (k : Nat) (l : List α) :
    anyFrom p k l = true ↔ ∃ i, ∃ h : i < l.length, p (k + i) l[i] = true := by
  induction l generalizing k with
  | nil => simp [anyFrom]
  | cons x xs ih =>
    simp only [anyFrom, Bool.or_eq_true, ih]
    constructor
    · rintro (h | ⟨i, hi, h⟩)
      · exact ⟨0, by simp, by simpa using h⟩
      · refine ⟨i + 1, by simpa using hi, ?_⟩
        rw [List.getElem_cons_succ]
        rw [show k + (i + 1) = k + 1 + i by omega]
        exact h
    · rintro ⟨i, hi, h⟩
      cases i with
      | zero => exact Or.inl (by simpa using h)
      | succ i =>
        refine Or.inr ⟨i, by simpa using hi, ?_⟩
        rw [List.getElem_cons_succ] at h
        rw [show k + 1 + i = k + (i + 1) by omega]
        exact h

/-- A test passes at some entry of a table. -/
theorem anyIdx_iff (p : Nat → α → Bool) (t : Table α n) : t.anyIdx p = true ↔ ∃ i : Fin n, p i.val (t.get i) = true := by
  simp only [anyIdx, anyFrom_iff, Nat.zero_add]
  constructor
  · rintro ⟨i, hi, h⟩
    exact ⟨⟨i, by rw [← t.size_eq]; exact hi⟩, h⟩
  · rintro ⟨i, h⟩
    exact ⟨i.val, by rw [t.size_eq]; exact i.isLt, h⟩

end Sys2Proof.Table
end

