-- ==== Sys2Proof/Laws/State.lean ====
section
/-! SUPPORT. Each field of the state after each update of one entry: no proof need unfold a record update. -/

namespace Sys2Proof.Machine

/-! ### setVoice -/

@[simp] theorem State.voices_setVoice (s : State) (v : Fin 16) (x : Voice) : (s.setVoice v x).voices = s.voices.set v x := rfl
@[simp] theorem State.alc_setVoice (s : State) (v : Fin 16) (x : Voice) : (s.setVoice v x).alc = s.alc := rfl
@[simp] theorem State.signals_setVoice (s : State) (v : Fin 16) (x : Voice) : (s.setVoice v x).signals = s.signals := rfl
@[simp] theorem State.clips_setVoice (s : State) (v : Fin 16) (x : Voice) : (s.setVoice v x).clips = s.clips := rfl
@[simp] theorem State.sectors_setVoice (s : State) (v : Fin 16) (x : Voice) : (s.setVoice v x).sectors = s.sectors := rfl
@[simp] theorem State.mem_setVoice (s : State) (v : Fin 16) (x : Voice) : (s.setVoice v x).mem = s.mem := rfl
@[simp] theorem State.op_setVoice (s : State) (v : Fin 16) (x : Voice) : (s.setVoice v x).op = s.op := rfl
@[simp] theorem State.coldWait_setVoice (s : State) (v : Fin 16) (x : Voice) : (s.setVoice v x).coldWait = s.coldWait := rfl
@[simp] theorem State.cues_setVoice (s : State) (v : Fin 16) (x : Voice) : (s.setVoice v x).cues = s.cues := rfl
@[simp] theorem State.lanes_setVoice (s : State) (v : Fin 16) (x : Voice) : (s.setVoice v x).lanes = s.lanes := rfl
@[simp] theorem State.trg_setVoice (s : State) (v : Fin 16) (x : Voice) : (s.setVoice v x).trg = s.trg := rfl
@[simp] theorem State.out_setVoice (s : State) (v : Fin 16) (x : Voice) : (s.setVoice v x).out = s.out := rfl
@[simp] theorem State.progress_setVoice (s : State) (v : Fin 16) (x : Voice) : (s.setVoice v x).progress = s.progress := rfl
@[simp] theorem State.evq_setVoice (s : State) (v : Fin 16) (x : Voice) : (s.setVoice v x).evq = s.evq := rfl
@[simp] theorem State.lnk_setVoice (s : State) (v : Fin 16) (x : Voice) : (s.setVoice v x).lnk = s.lnk := rfl
@[simp] theorem State.autostart_setVoice (s : State) (v : Fin 16) (x : Voice) : (s.setVoice v x).autostart = s.autostart := rfl
@[simp] theorem State.loadDue_setVoice (s : State) (v : Fin 16) (x : Voice) : (s.setVoice v x).loadDue = s.loadDue := rfl
@[simp] theorem State.autostartDue_setVoice (s : State) (v : Fin 16) (x : Voice) : (s.setVoice v x).autostartDue = s.autostartDue := rfl
@[simp] theorem State.nrst_setVoice (s : State) (v : Fin 16) (x : Voice) : (s.setVoice v x).nrst = s.nrst := rfl
@[simp] theorem State.power_setVoice (s : State) (v : Fin 16) (x : Voice) : (s.setVoice v x).power = s.power := rfl
@[simp] theorem State.damage_setVoice (s : State) (v : Fin 16) (x : Voice) : (s.setVoice v x).damage = s.damage := rfl
@[simp] theorem State.openings_setVoice (s : State) (v : Fin 16) (x : Voice) : (s.setVoice v x).openings = s.openings := rfl
@[simp] theorem State.pending_setVoice (s : State) (v : Fin 16) (x : Voice) : (s.setVoice v x).pending = s.pending := rfl
@[simp] theorem State.voice_setVoice (s : State) (v : Fin 16) (x : Voice) (v' : Fin 16) : (s.setVoice v x).voice v' = if v = v' then x else s.voice v' :=
  Table.get_set ..
@[simp] theorem State.lane_setVoice (s : State) (v : Fin 16) (x : Voice) (l' : Fin 4) : (s.setVoice v x).lane l' = s.lane l' := rfl
@[simp] theorem State.clip_setVoice (s : State) (v : Fin 16) (x : Voice) (c' : Fin 64) : (s.setVoice v x).clip c' = s.clip c' := rfl
@[simp] theorem State.binding_setVoice (s : State) (v : Fin 16) (x : Voice) (b' : Fin 32) : (s.setVoice v x).binding b' = s.binding b' := rfl

/-! ### setBody -/

@[simp] theorem State.voices_setBody (s : State) (v : Fin 16) (b : VoiceBody) : (s.setBody v b).voices = s.voices.set v { s.voice v with body := b } := rfl
@[simp] theorem State.alc_setBody (s : State) (v : Fin 16) (b : VoiceBody) : (s.setBody v b).alc = s.alc := rfl
@[simp] theorem State.signals_setBody (s : State) (v : Fin 16) (b : VoiceBody) : (s.setBody v b).signals = s.signals := rfl
@[simp] theorem State.clips_setBody (s : State) (v : Fin 16) (b : VoiceBody) : (s.setBody v b).clips = s.clips := rfl
@[simp] theorem State.sectors_setBody (s : State) (v : Fin 16) (b : VoiceBody) : (s.setBody v b).sectors = s.sectors := rfl
@[simp] theorem State.mem_setBody (s : State) (v : Fin 16) (b : VoiceBody) : (s.setBody v b).mem = s.mem := rfl
@[simp] theorem State.op_setBody (s : State) (v : Fin 16) (b : VoiceBody) : (s.setBody v b).op = s.op := rfl
@[simp] theorem State.coldWait_setBody (s : State) (v : Fin 16) (b : VoiceBody) : (s.setBody v b).coldWait = s.coldWait := rfl
@[simp] theorem State.cues_setBody (s : State) (v : Fin 16) (b : VoiceBody) : (s.setBody v b).cues = s.cues := rfl
@[simp] theorem State.lanes_setBody (s : State) (v : Fin 16) (b : VoiceBody) : (s.setBody v b).lanes = s.lanes := rfl
@[simp] theorem State.trg_setBody (s : State) (v : Fin 16) (b : VoiceBody) : (s.setBody v b).trg = s.trg := rfl
@[simp] theorem State.out_setBody (s : State) (v : Fin 16) (b : VoiceBody) : (s.setBody v b).out = s.out := rfl
@[simp] theorem State.progress_setBody (s : State) (v : Fin 16) (b : VoiceBody) : (s.setBody v b).progress = s.progress := rfl
@[simp] theorem State.evq_setBody (s : State) (v : Fin 16) (b : VoiceBody) : (s.setBody v b).evq = s.evq := rfl
@[simp] theorem State.lnk_setBody (s : State) (v : Fin 16) (b : VoiceBody) : (s.setBody v b).lnk = s.lnk := rfl
@[simp] theorem State.autostart_setBody (s : State) (v : Fin 16) (b : VoiceBody) : (s.setBody v b).autostart = s.autostart := rfl
@[simp] theorem State.loadDue_setBody (s : State) (v : Fin 16) (b : VoiceBody) : (s.setBody v b).loadDue = s.loadDue := rfl
@[simp] theorem State.autostartDue_setBody (s : State) (v : Fin 16) (b : VoiceBody) : (s.setBody v b).autostartDue = s.autostartDue := rfl
@[simp] theorem State.nrst_setBody (s : State) (v : Fin 16) (b : VoiceBody) : (s.setBody v b).nrst = s.nrst := rfl
@[simp] theorem State.power_setBody (s : State) (v : Fin 16) (b : VoiceBody) : (s.setBody v b).power = s.power := rfl
@[simp] theorem State.damage_setBody (s : State) (v : Fin 16) (b : VoiceBody) : (s.setBody v b).damage = s.damage := rfl
@[simp] theorem State.openings_setBody (s : State) (v : Fin 16) (b : VoiceBody) : (s.setBody v b).openings = s.openings := rfl
@[simp] theorem State.pending_setBody (s : State) (v : Fin 16) (b : VoiceBody) : (s.setBody v b).pending = s.pending := rfl
@[simp] theorem State.voice_setBody (s : State) (v : Fin 16) (b : VoiceBody) (v' : Fin 16) :
    (s.setBody v b).voice v' = if v = v' then ⟨(s.voice v).generation, b⟩ else s.voice v' :=
  Table.get_set ..
@[simp] theorem State.lane_setBody (s : State) (v : Fin 16) (b : VoiceBody) (l' : Fin 4) : (s.setBody v b).lane l' = s.lane l' := rfl
@[simp] theorem State.clip_setBody (s : State) (v : Fin 16) (b : VoiceBody) (c' : Fin 64) : (s.setBody v b).clip c' = s.clip c' := rfl
@[simp] theorem State.binding_setBody (s : State) (v : Fin 16) (b : VoiceBody) (b' : Fin 32) : (s.setBody v b).binding b' = s.binding b' := rfl

/-! ### setLane -/

@[simp] theorem State.voices_setLane (s : State) (l : Fin 4) (x : Lane) : (s.setLane l x).voices = s.voices := rfl
@[simp] theorem State.alc_setLane (s : State) (l : Fin 4) (x : Lane) : (s.setLane l x).alc = s.alc := rfl
@[simp] theorem State.signals_setLane (s : State) (l : Fin 4) (x : Lane) : (s.setLane l x).signals = s.signals := rfl
@[simp] theorem State.clips_setLane (s : State) (l : Fin 4) (x : Lane) : (s.setLane l x).clips = s.clips := rfl
@[simp] theorem State.sectors_setLane (s : State) (l : Fin 4) (x : Lane) : (s.setLane l x).sectors = s.sectors := rfl
@[simp] theorem State.mem_setLane (s : State) (l : Fin 4) (x : Lane) : (s.setLane l x).mem = s.mem := rfl
@[simp] theorem State.op_setLane (s : State) (l : Fin 4) (x : Lane) : (s.setLane l x).op = s.op := rfl
@[simp] theorem State.coldWait_setLane (s : State) (l : Fin 4) (x : Lane) : (s.setLane l x).coldWait = s.coldWait := rfl
@[simp] theorem State.cues_setLane (s : State) (l : Fin 4) (x : Lane) : (s.setLane l x).cues = s.cues := rfl
@[simp] theorem State.lanes_setLane (s : State) (l : Fin 4) (x : Lane) : (s.setLane l x).lanes = s.lanes.set l x := rfl
@[simp] theorem State.trg_setLane (s : State) (l : Fin 4) (x : Lane) : (s.setLane l x).trg = s.trg := rfl
@[simp] theorem State.out_setLane (s : State) (l : Fin 4) (x : Lane) : (s.setLane l x).out = s.out := rfl
@[simp] theorem State.progress_setLane (s : State) (l : Fin 4) (x : Lane) : (s.setLane l x).progress = s.progress := rfl
@[simp] theorem State.evq_setLane (s : State) (l : Fin 4) (x : Lane) : (s.setLane l x).evq = s.evq := rfl
@[simp] theorem State.lnk_setLane (s : State) (l : Fin 4) (x : Lane) : (s.setLane l x).lnk = s.lnk := rfl
@[simp] theorem State.autostart_setLane (s : State) (l : Fin 4) (x : Lane) : (s.setLane l x).autostart = s.autostart := rfl
@[simp] theorem State.loadDue_setLane (s : State) (l : Fin 4) (x : Lane) : (s.setLane l x).loadDue = s.loadDue := rfl
@[simp] theorem State.autostartDue_setLane (s : State) (l : Fin 4) (x : Lane) : (s.setLane l x).autostartDue = s.autostartDue := rfl
@[simp] theorem State.nrst_setLane (s : State) (l : Fin 4) (x : Lane) : (s.setLane l x).nrst = s.nrst := rfl
@[simp] theorem State.power_setLane (s : State) (l : Fin 4) (x : Lane) : (s.setLane l x).power = s.power := rfl
@[simp] theorem State.damage_setLane (s : State) (l : Fin 4) (x : Lane) : (s.setLane l x).damage = s.damage := rfl
@[simp] theorem State.openings_setLane (s : State) (l : Fin 4) (x : Lane) : (s.setLane l x).openings = s.openings := rfl
@[simp] theorem State.pending_setLane (s : State) (l : Fin 4) (x : Lane) : (s.setLane l x).pending = s.pending := rfl
@[simp] theorem State.voice_setLane (s : State) (l : Fin 4) (x : Lane) (v' : Fin 16) : (s.setLane l x).voice v' = s.voice v' := rfl
@[simp] theorem State.lane_setLane (s : State) (l : Fin 4) (x : Lane) (l' : Fin 4) : (s.setLane l x).lane l' = if l = l' then x else s.lane l' :=
  Table.get_set ..
@[simp] theorem State.clip_setLane (s : State) (l : Fin 4) (x : Lane) (c' : Fin 64) : (s.setLane l x).clip c' = s.clip c' := rfl
@[simp] theorem State.binding_setLane (s : State) (l : Fin 4) (x : Lane) (b' : Fin 32) : (s.setLane l x).binding b' = s.binding b' := rfl

/-! ### setClip -/

@[simp] theorem State.voices_setClip (s : State) (c : Fin 64) (x : Clip) : (s.setClip c x).voices = s.voices := rfl
@[simp] theorem State.alc_setClip (s : State) (c : Fin 64) (x : Clip) : (s.setClip c x).alc = s.alc := rfl
@[simp] theorem State.signals_setClip (s : State) (c : Fin 64) (x : Clip) : (s.setClip c x).signals = s.signals := rfl
@[simp] theorem State.clips_setClip (s : State) (c : Fin 64) (x : Clip) : (s.setClip c x).clips = s.clips.set c x := rfl
@[simp] theorem State.sectors_setClip (s : State) (c : Fin 64) (x : Clip) : (s.setClip c x).sectors = s.sectors := rfl
@[simp] theorem State.mem_setClip (s : State) (c : Fin 64) (x : Clip) : (s.setClip c x).mem = s.mem := rfl
@[simp] theorem State.op_setClip (s : State) (c : Fin 64) (x : Clip) : (s.setClip c x).op = s.op := rfl
@[simp] theorem State.coldWait_setClip (s : State) (c : Fin 64) (x : Clip) : (s.setClip c x).coldWait = s.coldWait := rfl
@[simp] theorem State.cues_setClip (s : State) (c : Fin 64) (x : Clip) : (s.setClip c x).cues = s.cues := rfl
@[simp] theorem State.lanes_setClip (s : State) (c : Fin 64) (x : Clip) : (s.setClip c x).lanes = s.lanes := rfl
@[simp] theorem State.trg_setClip (s : State) (c : Fin 64) (x : Clip) : (s.setClip c x).trg = s.trg := rfl
@[simp] theorem State.out_setClip (s : State) (c : Fin 64) (x : Clip) : (s.setClip c x).out = s.out := rfl
@[simp] theorem State.progress_setClip (s : State) (c : Fin 64) (x : Clip) : (s.setClip c x).progress = s.progress := rfl
@[simp] theorem State.evq_setClip (s : State) (c : Fin 64) (x : Clip) : (s.setClip c x).evq = s.evq := rfl
@[simp] theorem State.lnk_setClip (s : State) (c : Fin 64) (x : Clip) : (s.setClip c x).lnk = s.lnk := rfl
@[simp] theorem State.autostart_setClip (s : State) (c : Fin 64) (x : Clip) : (s.setClip c x).autostart = s.autostart := rfl
@[simp] theorem State.loadDue_setClip (s : State) (c : Fin 64) (x : Clip) : (s.setClip c x).loadDue = s.loadDue := rfl
@[simp] theorem State.autostartDue_setClip (s : State) (c : Fin 64) (x : Clip) : (s.setClip c x).autostartDue = s.autostartDue := rfl
@[simp] theorem State.nrst_setClip (s : State) (c : Fin 64) (x : Clip) : (s.setClip c x).nrst = s.nrst := rfl
@[simp] theorem State.power_setClip (s : State) (c : Fin 64) (x : Clip) : (s.setClip c x).power = s.power := rfl
@[simp] theorem State.damage_setClip (s : State) (c : Fin 64) (x : Clip) : (s.setClip c x).damage = s.damage := rfl
@[simp] theorem State.openings_setClip (s : State) (c : Fin 64) (x : Clip) : (s.setClip c x).openings = s.openings := rfl
@[simp] theorem State.pending_setClip (s : State) (c : Fin 64) (x : Clip) : (s.setClip c x).pending = s.pending := rfl
@[simp] theorem State.voice_setClip (s : State) (c : Fin 64) (x : Clip) (v' : Fin 16) : (s.setClip c x).voice v' = s.voice v' := rfl
@[simp] theorem State.lane_setClip (s : State) (c : Fin 64) (x : Clip) (l' : Fin 4) : (s.setClip c x).lane l' = s.lane l' := rfl
@[simp] theorem State.clip_setClip (s : State) (c : Fin 64) (x : Clip) (c' : Fin 64) : (s.setClip c x).clip c' = if c = c' then x else s.clip c' :=
  Table.get_set ..
@[simp] theorem State.binding_setClip (s : State) (c : Fin 64) (x : Clip) (b' : Fin 32) : (s.setClip c x).binding b' = s.binding b' := rfl

/-! ### setSector -/

@[simp] theorem State.voices_setSector (s : State) (i : Fin 128) (x : Sector) : (s.setSector i x).voices = s.voices := rfl
@[simp] theorem State.alc_setSector (s : State) (i : Fin 128) (x : Sector) : (s.setSector i x).alc = s.alc := rfl
@[simp] theorem State.signals_setSector (s : State) (i : Fin 128) (x : Sector) : (s.setSector i x).signals = s.signals := rfl
@[simp] theorem State.clips_setSector (s : State) (i : Fin 128) (x : Sector) : (s.setSector i x).clips = s.clips := rfl
@[simp] theorem State.sectors_setSector (s : State) (i : Fin 128) (x : Sector) : (s.setSector i x).sectors = s.sectors.set i x := rfl
@[simp] theorem State.mem_setSector (s : State) (i : Fin 128) (x : Sector) : (s.setSector i x).mem = s.mem := rfl
@[simp] theorem State.op_setSector (s : State) (i : Fin 128) (x : Sector) : (s.setSector i x).op = s.op := rfl
@[simp] theorem State.coldWait_setSector (s : State) (i : Fin 128) (x : Sector) : (s.setSector i x).coldWait = s.coldWait := rfl
@[simp] theorem State.cues_setSector (s : State) (i : Fin 128) (x : Sector) : (s.setSector i x).cues = s.cues := rfl
@[simp] theorem State.lanes_setSector (s : State) (i : Fin 128) (x : Sector) : (s.setSector i x).lanes = s.lanes := rfl
@[simp] theorem State.trg_setSector (s : State) (i : Fin 128) (x : Sector) : (s.setSector i x).trg = s.trg := rfl
@[simp] theorem State.out_setSector (s : State) (i : Fin 128) (x : Sector) : (s.setSector i x).out = s.out := rfl
@[simp] theorem State.progress_setSector (s : State) (i : Fin 128) (x : Sector) : (s.setSector i x).progress = s.progress := rfl
@[simp] theorem State.evq_setSector (s : State) (i : Fin 128) (x : Sector) : (s.setSector i x).evq = s.evq := rfl
@[simp] theorem State.lnk_setSector (s : State) (i : Fin 128) (x : Sector) : (s.setSector i x).lnk = s.lnk := rfl
@[simp] theorem State.autostart_setSector (s : State) (i : Fin 128) (x : Sector) : (s.setSector i x).autostart = s.autostart := rfl
@[simp] theorem State.loadDue_setSector (s : State) (i : Fin 128) (x : Sector) : (s.setSector i x).loadDue = s.loadDue := rfl
@[simp] theorem State.autostartDue_setSector (s : State) (i : Fin 128) (x : Sector) : (s.setSector i x).autostartDue = s.autostartDue := rfl
@[simp] theorem State.nrst_setSector (s : State) (i : Fin 128) (x : Sector) : (s.setSector i x).nrst = s.nrst := rfl
@[simp] theorem State.power_setSector (s : State) (i : Fin 128) (x : Sector) : (s.setSector i x).power = s.power := rfl
@[simp] theorem State.damage_setSector (s : State) (i : Fin 128) (x : Sector) : (s.setSector i x).damage = s.damage := rfl
@[simp] theorem State.openings_setSector (s : State) (i : Fin 128) (x : Sector) : (s.setSector i x).openings = s.openings := rfl
@[simp] theorem State.pending_setSector (s : State) (i : Fin 128) (x : Sector) : (s.setSector i x).pending = s.pending := rfl
@[simp] theorem State.voice_setSector (s : State) (i : Fin 128) (x : Sector) (v' : Fin 16) : (s.setSector i x).voice v' = s.voice v' := rfl
@[simp] theorem State.lane_setSector (s : State) (i : Fin 128) (x : Sector) (l' : Fin 4) : (s.setSector i x).lane l' = s.lane l' := rfl
@[simp] theorem State.clip_setSector (s : State) (i : Fin 128) (x : Sector) (c' : Fin 64) : (s.setSector i x).clip c' = s.clip c' := rfl
@[simp] theorem State.binding_setSector (s : State) (i : Fin 128) (x : Sector) (b' : Fin 32) : (s.setSector i x).binding b' = s.binding b' := rfl

/-! ### setCue -/

@[simp] theorem State.voices_setCue (s : State) (i : Fin 256) (x : Option CueBlock) : (s.setCue i x).voices = s.voices := rfl
@[simp] theorem State.alc_setCue (s : State) (i : Fin 256) (x : Option CueBlock) : (s.setCue i x).alc = s.alc := rfl
@[simp] theorem State.signals_setCue (s : State) (i : Fin 256) (x : Option CueBlock) : (s.setCue i x).signals = s.signals := rfl
@[simp] theorem State.clips_setCue (s : State) (i : Fin 256) (x : Option CueBlock) : (s.setCue i x).clips = s.clips := rfl
@[simp] theorem State.sectors_setCue (s : State) (i : Fin 256) (x : Option CueBlock) : (s.setCue i x).sectors = s.sectors := rfl
@[simp] theorem State.mem_setCue (s : State) (i : Fin 256) (x : Option CueBlock) : (s.setCue i x).mem = s.mem := rfl
@[simp] theorem State.op_setCue (s : State) (i : Fin 256) (x : Option CueBlock) : (s.setCue i x).op = s.op := rfl
@[simp] theorem State.coldWait_setCue (s : State) (i : Fin 256) (x : Option CueBlock) : (s.setCue i x).coldWait = s.coldWait := rfl
@[simp] theorem State.cues_setCue (s : State) (i : Fin 256) (x : Option CueBlock) : (s.setCue i x).cues = s.cues.set i x := rfl
@[simp] theorem State.lanes_setCue (s : State) (i : Fin 256) (x : Option CueBlock) : (s.setCue i x).lanes = s.lanes := rfl
@[simp] theorem State.trg_setCue (s : State) (i : Fin 256) (x : Option CueBlock) : (s.setCue i x).trg = s.trg := rfl
@[simp] theorem State.out_setCue (s : State) (i : Fin 256) (x : Option CueBlock) : (s.setCue i x).out = s.out := rfl
@[simp] theorem State.progress_setCue (s : State) (i : Fin 256) (x : Option CueBlock) : (s.setCue i x).progress = s.progress := rfl
@[simp] theorem State.evq_setCue (s : State) (i : Fin 256) (x : Option CueBlock) : (s.setCue i x).evq = s.evq := rfl
@[simp] theorem State.lnk_setCue (s : State) (i : Fin 256) (x : Option CueBlock) : (s.setCue i x).lnk = s.lnk := rfl
@[simp] theorem State.autostart_setCue (s : State) (i : Fin 256) (x : Option CueBlock) : (s.setCue i x).autostart = s.autostart := rfl
@[simp] theorem State.loadDue_setCue (s : State) (i : Fin 256) (x : Option CueBlock) : (s.setCue i x).loadDue = s.loadDue := rfl
@[simp] theorem State.autostartDue_setCue (s : State) (i : Fin 256) (x : Option CueBlock) : (s.setCue i x).autostartDue = s.autostartDue := rfl
@[simp] theorem State.nrst_setCue (s : State) (i : Fin 256) (x : Option CueBlock) : (s.setCue i x).nrst = s.nrst := rfl
@[simp] theorem State.power_setCue (s : State) (i : Fin 256) (x : Option CueBlock) : (s.setCue i x).power = s.power := rfl
@[simp] theorem State.damage_setCue (s : State) (i : Fin 256) (x : Option CueBlock) : (s.setCue i x).damage = s.damage := rfl
@[simp] theorem State.openings_setCue (s : State) (i : Fin 256) (x : Option CueBlock) : (s.setCue i x).openings = s.openings := rfl
@[simp] theorem State.pending_setCue (s : State) (i : Fin 256) (x : Option CueBlock) : (s.setCue i x).pending = s.pending := rfl
@[simp] theorem State.voice_setCue (s : State) (i : Fin 256) (x : Option CueBlock) (v' : Fin 16) : (s.setCue i x).voice v' = s.voice v' := rfl
@[simp] theorem State.lane_setCue (s : State) (i : Fin 256) (x : Option CueBlock) (l' : Fin 4) : (s.setCue i x).lane l' = s.lane l' := rfl
@[simp] theorem State.clip_setCue (s : State) (i : Fin 256) (x : Option CueBlock) (c' : Fin 64) : (s.setCue i x).clip c' = s.clip c' := rfl
@[simp] theorem State.binding_setCue (s : State) (i : Fin 256) (x : Option CueBlock) (b' : Fin 32) : (s.setCue i x).binding b' = s.binding b' := rfl

/-! ### setBinding -/

@[simp] theorem State.voices_setBinding (s : State) (b : Fin 32) (x : Binding) : (s.setBinding b x).voices = s.voices := rfl
@[simp] theorem State.alc_setBinding (s : State) (b : Fin 32) (x : Binding) : (s.setBinding b x).alc = s.alc := rfl
@[simp] theorem State.signals_setBinding (s : State) (b : Fin 32) (x : Binding) : (s.setBinding b x).signals = s.signals := rfl
@[simp] theorem State.clips_setBinding (s : State) (b : Fin 32) (x : Binding) : (s.setBinding b x).clips = s.clips := rfl
@[simp] theorem State.sectors_setBinding (s : State) (b : Fin 32) (x : Binding) : (s.setBinding b x).sectors = s.sectors := rfl
@[simp] theorem State.mem_setBinding (s : State) (b : Fin 32) (x : Binding) : (s.setBinding b x).mem = s.mem := rfl
@[simp] theorem State.op_setBinding (s : State) (b : Fin 32) (x : Binding) : (s.setBinding b x).op = s.op := rfl
@[simp] theorem State.coldWait_setBinding (s : State) (b : Fin 32) (x : Binding) : (s.setBinding b x).coldWait = s.coldWait := rfl
@[simp] theorem State.cues_setBinding (s : State) (b : Fin 32) (x : Binding) : (s.setBinding b x).cues = s.cues := rfl
@[simp] theorem State.lanes_setBinding (s : State) (b : Fin 32) (x : Binding) : (s.setBinding b x).lanes = s.lanes := rfl
@[simp] theorem State.trg_setBinding (s : State) (b : Fin 32) (x : Binding) : (s.setBinding b x).trg = { s.trg with bindings := s.trg.bindings.set b x } := rfl
@[simp] theorem State.out_setBinding (s : State) (b : Fin 32) (x : Binding) : (s.setBinding b x).out = s.out := rfl
@[simp] theorem State.progress_setBinding (s : State) (b : Fin 32) (x : Binding) : (s.setBinding b x).progress = s.progress := rfl
@[simp] theorem State.evq_setBinding (s : State) (b : Fin 32) (x : Binding) : (s.setBinding b x).evq = s.evq := rfl
@[simp] theorem State.lnk_setBinding (s : State) (b : Fin 32) (x : Binding) : (s.setBinding b x).lnk = s.lnk := rfl
@[simp] theorem State.autostart_setBinding (s : State) (b : Fin 32) (x : Binding) : (s.setBinding b x).autostart = s.autostart := rfl
@[simp] theorem State.loadDue_setBinding (s : State) (b : Fin 32) (x : Binding) : (s.setBinding b x).loadDue = s.loadDue := rfl
@[simp] theorem State.autostartDue_setBinding (s : State) (b : Fin 32) (x : Binding) : (s.setBinding b x).autostartDue = s.autostartDue := rfl
@[simp] theorem State.nrst_setBinding (s : State) (b : Fin 32) (x : Binding) : (s.setBinding b x).nrst = s.nrst := rfl
@[simp] theorem State.power_setBinding (s : State) (b : Fin 32) (x : Binding) : (s.setBinding b x).power = s.power := rfl
@[simp] theorem State.damage_setBinding (s : State) (b : Fin 32) (x : Binding) : (s.setBinding b x).damage = s.damage := rfl
@[simp] theorem State.openings_setBinding (s : State) (b : Fin 32) (x : Binding) : (s.setBinding b x).openings = s.openings := rfl
@[simp] theorem State.pending_setBinding (s : State) (b : Fin 32) (x : Binding) : (s.setBinding b x).pending = s.pending := rfl
@[simp] theorem State.voice_setBinding (s : State) (b : Fin 32) (x : Binding) (v' : Fin 16) : (s.setBinding b x).voice v' = s.voice v' := rfl
@[simp] theorem State.lane_setBinding (s : State) (b : Fin 32) (x : Binding) (l' : Fin 4) : (s.setBinding b x).lane l' = s.lane l' := rfl
@[simp] theorem State.clip_setBinding (s : State) (b : Fin 32) (x : Binding) (c' : Fin 64) : (s.setBinding b x).clip c' = s.clip c' := rfl
@[simp] theorem State.binding_setBinding (s : State) (b : Fin 32) (x : Binding) (b' : Fin 32) :
    (s.setBinding b x).binding b' = if b = b' then x else s.binding b' :=
  Table.get_set ..

/-! ### setAge -/

@[simp] theorem State.voices_setAge (s : State) (a : List (Fin 16)) : (s.setAge a).voices = s.voices := rfl
@[simp] theorem State.alc_setAge (s : State) (a : List (Fin 16)) : (s.setAge a).alc = { s.alc with age := a } := rfl
@[simp] theorem State.signals_setAge (s : State) (a : List (Fin 16)) : (s.setAge a).signals = s.signals := rfl
@[simp] theorem State.clips_setAge (s : State) (a : List (Fin 16)) : (s.setAge a).clips = s.clips := rfl
@[simp] theorem State.sectors_setAge (s : State) (a : List (Fin 16)) : (s.setAge a).sectors = s.sectors := rfl
@[simp] theorem State.mem_setAge (s : State) (a : List (Fin 16)) : (s.setAge a).mem = s.mem := rfl
@[simp] theorem State.op_setAge (s : State) (a : List (Fin 16)) : (s.setAge a).op = s.op := rfl
@[simp] theorem State.coldWait_setAge (s : State) (a : List (Fin 16)) : (s.setAge a).coldWait = s.coldWait := rfl
@[simp] theorem State.cues_setAge (s : State) (a : List (Fin 16)) : (s.setAge a).cues = s.cues := rfl
@[simp] theorem State.lanes_setAge (s : State) (a : List (Fin 16)) : (s.setAge a).lanes = s.lanes := rfl
@[simp] theorem State.trg_setAge (s : State) (a : List (Fin 16)) : (s.setAge a).trg = s.trg := rfl
@[simp] theorem State.out_setAge (s : State) (a : List (Fin 16)) : (s.setAge a).out = s.out := rfl
@[simp] theorem State.progress_setAge (s : State) (a : List (Fin 16)) : (s.setAge a).progress = s.progress := rfl
@[simp] theorem State.evq_setAge (s : State) (a : List (Fin 16)) : (s.setAge a).evq = s.evq := rfl
@[simp] theorem State.lnk_setAge (s : State) (a : List (Fin 16)) : (s.setAge a).lnk = s.lnk := rfl
@[simp] theorem State.autostart_setAge (s : State) (a : List (Fin 16)) : (s.setAge a).autostart = s.autostart := rfl
@[simp] theorem State.loadDue_setAge (s : State) (a : List (Fin 16)) : (s.setAge a).loadDue = s.loadDue := rfl
@[simp] theorem State.autostartDue_setAge (s : State) (a : List (Fin 16)) : (s.setAge a).autostartDue = s.autostartDue := rfl
@[simp] theorem State.nrst_setAge (s : State) (a : List (Fin 16)) : (s.setAge a).nrst = s.nrst := rfl
@[simp] theorem State.power_setAge (s : State) (a : List (Fin 16)) : (s.setAge a).power = s.power := rfl
@[simp] theorem State.damage_setAge (s : State) (a : List (Fin 16)) : (s.setAge a).damage = s.damage := rfl
@[simp] theorem State.openings_setAge (s : State) (a : List (Fin 16)) : (s.setAge a).openings = s.openings := rfl
@[simp] theorem State.pending_setAge (s : State) (a : List (Fin 16)) : (s.setAge a).pending = s.pending := rfl
@[simp] theorem State.voice_setAge (s : State) (a : List (Fin 16)) (v' : Fin 16) : (s.setAge a).voice v' = s.voice v' := rfl
@[simp] theorem State.lane_setAge (s : State) (a : List (Fin 16)) (l' : Fin 4) : (s.setAge a).lane l' = s.lane l' := rfl
@[simp] theorem State.clip_setAge (s : State) (a : List (Fin 16)) (c' : Fin 64) : (s.setAge a).clip c' = s.clip c' := rfl
@[simp] theorem State.binding_setAge (s : State) (a : List (Fin 16)) (b' : Fin 32) : (s.setAge a).binding b' = s.binding b' := rfl

/-! ### setRetry -/

@[simp] theorem State.voices_setRetry (s : State) (r : Option Retry) : (s.setRetry r).voices = s.voices := rfl
@[simp] theorem State.alc_setRetry (s : State) (r : Option Retry) : (s.setRetry r).alc = { s.alc with retry := r } := rfl
@[simp] theorem State.signals_setRetry (s : State) (r : Option Retry) : (s.setRetry r).signals = s.signals := rfl
@[simp] theorem State.clips_setRetry (s : State) (r : Option Retry) : (s.setRetry r).clips = s.clips := rfl
@[simp] theorem State.sectors_setRetry (s : State) (r : Option Retry) : (s.setRetry r).sectors = s.sectors := rfl
@[simp] theorem State.mem_setRetry (s : State) (r : Option Retry) : (s.setRetry r).mem = s.mem := rfl
@[simp] theorem State.op_setRetry (s : State) (r : Option Retry) : (s.setRetry r).op = s.op := rfl
@[simp] theorem State.coldWait_setRetry (s : State) (r : Option Retry) : (s.setRetry r).coldWait = s.coldWait := rfl
@[simp] theorem State.cues_setRetry (s : State) (r : Option Retry) : (s.setRetry r).cues = s.cues := rfl
@[simp] theorem State.lanes_setRetry (s : State) (r : Option Retry) : (s.setRetry r).lanes = s.lanes := rfl
@[simp] theorem State.trg_setRetry (s : State) (r : Option Retry) : (s.setRetry r).trg = s.trg := rfl
@[simp] theorem State.out_setRetry (s : State) (r : Option Retry) : (s.setRetry r).out = s.out := rfl
@[simp] theorem State.progress_setRetry (s : State) (r : Option Retry) : (s.setRetry r).progress = s.progress := rfl
@[simp] theorem State.evq_setRetry (s : State) (r : Option Retry) : (s.setRetry r).evq = s.evq := rfl
@[simp] theorem State.lnk_setRetry (s : State) (r : Option Retry) : (s.setRetry r).lnk = s.lnk := rfl
@[simp] theorem State.autostart_setRetry (s : State) (r : Option Retry) : (s.setRetry r).autostart = s.autostart := rfl
@[simp] theorem State.loadDue_setRetry (s : State) (r : Option Retry) : (s.setRetry r).loadDue = s.loadDue := rfl
@[simp] theorem State.autostartDue_setRetry (s : State) (r : Option Retry) : (s.setRetry r).autostartDue = s.autostartDue := rfl
@[simp] theorem State.nrst_setRetry (s : State) (r : Option Retry) : (s.setRetry r).nrst = s.nrst := rfl
@[simp] theorem State.power_setRetry (s : State) (r : Option Retry) : (s.setRetry r).power = s.power := rfl
@[simp] theorem State.damage_setRetry (s : State) (r : Option Retry) : (s.setRetry r).damage = s.damage := rfl
@[simp] theorem State.openings_setRetry (s : State) (r : Option Retry) : (s.setRetry r).openings = s.openings := rfl
@[simp] theorem State.pending_setRetry (s : State) (r : Option Retry) : (s.setRetry r).pending = s.pending := rfl
@[simp] theorem State.voice_setRetry (s : State) (r : Option Retry) (v' : Fin 16) : (s.setRetry r).voice v' = s.voice v' := rfl
@[simp] theorem State.lane_setRetry (s : State) (r : Option Retry) (l' : Fin 4) : (s.setRetry r).lane l' = s.lane l' := rfl
@[simp] theorem State.clip_setRetry (s : State) (r : Option Retry) (c' : Fin 64) : (s.setRetry r).clip c' = s.clip c' := rfl
@[simp] theorem State.binding_setRetry (s : State) (r : Option Retry) (b' : Fin 32) : (s.setRetry r).binding b' = s.binding b' := rfl

/-! ### offer -/

@[simp] theorem State.voices_offer (s : State) : (s.offer).voices = s.voices := rfl
@[simp] theorem State.alc_offer (s : State) : (s.offer).alc = { s.alc with offerDue := true } := rfl
@[simp] theorem State.signals_offer (s : State) : (s.offer).signals = s.signals := rfl
@[simp] theorem State.clips_offer (s : State) : (s.offer).clips = s.clips := rfl
@[simp] theorem State.sectors_offer (s : State) : (s.offer).sectors = s.sectors := rfl
@[simp] theorem State.mem_offer (s : State) : (s.offer).mem = s.mem := rfl
@[simp] theorem State.op_offer (s : State) : (s.offer).op = s.op := rfl
@[simp] theorem State.coldWait_offer (s : State) : (s.offer).coldWait = s.coldWait := rfl
@[simp] theorem State.cues_offer (s : State) : (s.offer).cues = s.cues := rfl
@[simp] theorem State.lanes_offer (s : State) : (s.offer).lanes = s.lanes := rfl
@[simp] theorem State.trg_offer (s : State) : (s.offer).trg = s.trg := rfl
@[simp] theorem State.out_offer (s : State) : (s.offer).out = s.out := rfl
@[simp] theorem State.progress_offer (s : State) : (s.offer).progress = s.progress := rfl
@[simp] theorem State.evq_offer (s : State) : (s.offer).evq = s.evq := rfl
@[simp] theorem State.lnk_offer (s : State) : (s.offer).lnk = s.lnk := rfl
@[simp] theorem State.autostart_offer (s : State) : (s.offer).autostart = s.autostart := rfl
@[simp] theorem State.loadDue_offer (s : State) : (s.offer).loadDue = s.loadDue := rfl
@[simp] theorem State.autostartDue_offer (s : State) : (s.offer).autostartDue = s.autostartDue := rfl
@[simp] theorem State.nrst_offer (s : State) : (s.offer).nrst = s.nrst := rfl
@[simp] theorem State.power_offer (s : State) : (s.offer).power = s.power := rfl
@[simp] theorem State.damage_offer (s : State) : (s.offer).damage = s.damage := rfl
@[simp] theorem State.openings_offer (s : State) : (s.offer).openings = s.openings := rfl
@[simp] theorem State.pending_offer (s : State) : (s.offer).pending = s.pending := rfl
@[simp] theorem State.voice_offer (s : State) (v' : Fin 16) : (s.offer).voice v' = s.voice v' := rfl
@[simp] theorem State.lane_offer (s : State) (l' : Fin 4) : (s.offer).lane l' = s.lane l' := rfl
@[simp] theorem State.clip_offer (s : State) (c' : Fin 64) : (s.offer).clip c' = s.clip c' := rfl
@[simp] theorem State.binding_offer (s : State) (b' : Fin 32) : (s.offer).binding b' = s.binding b' := rfl

/-! ### clearOffer -/

@[simp] theorem State.voices_clearOffer (s : State) : (s.clearOffer).voices = s.voices := rfl
@[simp] theorem State.alc_clearOffer (s : State) : (s.clearOffer).alc = { s.alc with offerDue := false } := rfl
@[simp] theorem State.signals_clearOffer (s : State) : (s.clearOffer).signals = s.signals := rfl
@[simp] theorem State.clips_clearOffer (s : State) : (s.clearOffer).clips = s.clips := rfl
@[simp] theorem State.sectors_clearOffer (s : State) : (s.clearOffer).sectors = s.sectors := rfl
@[simp] theorem State.mem_clearOffer (s : State) : (s.clearOffer).mem = s.mem := rfl
@[simp] theorem State.op_clearOffer (s : State) : (s.clearOffer).op = s.op := rfl
@[simp] theorem State.coldWait_clearOffer (s : State) : (s.clearOffer).coldWait = s.coldWait := rfl
@[simp] theorem State.cues_clearOffer (s : State) : (s.clearOffer).cues = s.cues := rfl
@[simp] theorem State.lanes_clearOffer (s : State) : (s.clearOffer).lanes = s.lanes := rfl
@[simp] theorem State.trg_clearOffer (s : State) : (s.clearOffer).trg = s.trg := rfl
@[simp] theorem State.out_clearOffer (s : State) : (s.clearOffer).out = s.out := rfl
@[simp] theorem State.progress_clearOffer (s : State) : (s.clearOffer).progress = s.progress := rfl
@[simp] theorem State.evq_clearOffer (s : State) : (s.clearOffer).evq = s.evq := rfl
@[simp] theorem State.lnk_clearOffer (s : State) : (s.clearOffer).lnk = s.lnk := rfl
@[simp] theorem State.autostart_clearOffer (s : State) : (s.clearOffer).autostart = s.autostart := rfl
@[simp] theorem State.loadDue_clearOffer (s : State) : (s.clearOffer).loadDue = s.loadDue := rfl
@[simp] theorem State.autostartDue_clearOffer (s : State) : (s.clearOffer).autostartDue = s.autostartDue := rfl
@[simp] theorem State.nrst_clearOffer (s : State) : (s.clearOffer).nrst = s.nrst := rfl
@[simp] theorem State.power_clearOffer (s : State) : (s.clearOffer).power = s.power := rfl
@[simp] theorem State.damage_clearOffer (s : State) : (s.clearOffer).damage = s.damage := rfl
@[simp] theorem State.openings_clearOffer (s : State) : (s.clearOffer).openings = s.openings := rfl
@[simp] theorem State.pending_clearOffer (s : State) : (s.clearOffer).pending = s.pending := rfl
@[simp] theorem State.voice_clearOffer (s : State) (v' : Fin 16) : (s.clearOffer).voice v' = s.voice v' := rfl
@[simp] theorem State.lane_clearOffer (s : State) (l' : Fin 4) : (s.clearOffer).lane l' = s.lane l' := rfl
@[simp] theorem State.clip_clearOffer (s : State) (c' : Fin 64) : (s.clearOffer).clip c' = s.clip c' := rfl
@[simp] theorem State.binding_clearOffer (s : State) (b' : Fin 32) : (s.clearOffer).binding b' = s.binding b' := rfl

/-! ### signal -/

@[simp] theorem State.voices_signal (s : State) (h : Handle) : (s.signal h).voices = s.voices := rfl
@[simp] theorem State.alc_signal (s : State) (h : Handle) : (s.signal h).alc = s.alc := rfl
@[simp] theorem State.signals_signal (s : State) (h : Handle) : (s.signal h).signals = s.signals ++ [h] := rfl
@[simp] theorem State.clips_signal (s : State) (h : Handle) : (s.signal h).clips = s.clips := rfl
@[simp] theorem State.sectors_signal (s : State) (h : Handle) : (s.signal h).sectors = s.sectors := rfl
@[simp] theorem State.mem_signal (s : State) (h : Handle) : (s.signal h).mem = s.mem := rfl
@[simp] theorem State.op_signal (s : State) (h : Handle) : (s.signal h).op = s.op := rfl
@[simp] theorem State.coldWait_signal (s : State) (h : Handle) : (s.signal h).coldWait = s.coldWait := rfl
@[simp] theorem State.cues_signal (s : State) (h : Handle) : (s.signal h).cues = s.cues := rfl
@[simp] theorem State.lanes_signal (s : State) (h : Handle) : (s.signal h).lanes = s.lanes := rfl
@[simp] theorem State.trg_signal (s : State) (h : Handle) : (s.signal h).trg = s.trg := rfl
@[simp] theorem State.out_signal (s : State) (h : Handle) : (s.signal h).out = s.out := rfl
@[simp] theorem State.progress_signal (s : State) (h : Handle) : (s.signal h).progress = s.progress := rfl
@[simp] theorem State.evq_signal (s : State) (h : Handle) : (s.signal h).evq = s.evq := rfl
@[simp] theorem State.lnk_signal (s : State) (h : Handle) : (s.signal h).lnk = s.lnk := rfl
@[simp] theorem State.autostart_signal (s : State) (h : Handle) : (s.signal h).autostart = s.autostart := rfl
@[simp] theorem State.loadDue_signal (s : State) (h : Handle) : (s.signal h).loadDue = s.loadDue := rfl
@[simp] theorem State.autostartDue_signal (s : State) (h : Handle) : (s.signal h).autostartDue = s.autostartDue := rfl
@[simp] theorem State.nrst_signal (s : State) (h : Handle) : (s.signal h).nrst = s.nrst := rfl
@[simp] theorem State.power_signal (s : State) (h : Handle) : (s.signal h).power = s.power := rfl
@[simp] theorem State.damage_signal (s : State) (h : Handle) : (s.signal h).damage = s.damage := rfl
@[simp] theorem State.openings_signal (s : State) (h : Handle) : (s.signal h).openings = s.openings := rfl
@[simp] theorem State.pending_signal (s : State) (h : Handle) : (s.signal h).pending = s.pending := rfl
@[simp] theorem State.voice_signal (s : State) (h : Handle) (v' : Fin 16) : (s.signal h).voice v' = s.voice v' := rfl
@[simp] theorem State.lane_signal (s : State) (h : Handle) (l' : Fin 4) : (s.signal h).lane l' = s.lane l' := rfl
@[simp] theorem State.clip_signal (s : State) (h : Handle) (c' : Fin 64) : (s.signal h).clip c' = s.clip c' := rfl
@[simp] theorem State.binding_signal (s : State) (h : Handle) (b' : Fin 32) : (s.signal h).binding b' = s.binding b' := rfl

/-! ### setContribution -/

@[simp] theorem State.voices_setContribution (s : State) (v : Fin 16) (c : Int × Int) : (s.setContribution v c).voices = s.voices := rfl
@[simp] theorem State.alc_setContribution (s : State) (v : Fin 16) (c : Int × Int) : (s.setContribution v c).alc = s.alc := rfl
@[simp] theorem State.signals_setContribution (s : State) (v : Fin 16) (c : Int × Int) : (s.setContribution v c).signals = s.signals := rfl
@[simp] theorem State.clips_setContribution (s : State) (v : Fin 16) (c : Int × Int) : (s.setContribution v c).clips = s.clips := rfl
@[simp] theorem State.sectors_setContribution (s : State) (v : Fin 16) (c : Int × Int) : (s.setContribution v c).sectors = s.sectors := rfl
@[simp] theorem State.mem_setContribution (s : State) (v : Fin 16) (c : Int × Int) : (s.setContribution v c).mem = s.mem := rfl
@[simp] theorem State.op_setContribution (s : State) (v : Fin 16) (c : Int × Int) : (s.setContribution v c).op = s.op := rfl
@[simp] theorem State.coldWait_setContribution (s : State) (v : Fin 16) (c : Int × Int) : (s.setContribution v c).coldWait = s.coldWait := rfl
@[simp] theorem State.cues_setContribution (s : State) (v : Fin 16) (c : Int × Int) : (s.setContribution v c).cues = s.cues := rfl
@[simp] theorem State.lanes_setContribution (s : State) (v : Fin 16) (c : Int × Int) : (s.setContribution v c).lanes = s.lanes := rfl
@[simp] theorem State.trg_setContribution (s : State) (v : Fin 16) (c : Int × Int) : (s.setContribution v c).trg = s.trg := rfl
@[simp] theorem State.out_setContribution (s : State) (v : Fin 16) (c : Int × Int) : (s.setContribution v c).out = { s.out with contributions := s.out.contributions.set v c } := rfl
@[simp] theorem State.progress_setContribution (s : State) (v : Fin 16) (c : Int × Int) : (s.setContribution v c).progress = s.progress := rfl
@[simp] theorem State.evq_setContribution (s : State) (v : Fin 16) (c : Int × Int) : (s.setContribution v c).evq = s.evq := rfl
@[simp] theorem State.lnk_setContribution (s : State) (v : Fin 16) (c : Int × Int) : (s.setContribution v c).lnk = s.lnk := rfl
@[simp] theorem State.autostart_setContribution (s : State) (v : Fin 16) (c : Int × Int) : (s.setContribution v c).autostart = s.autostart := rfl
@[simp] theorem State.loadDue_setContribution (s : State) (v : Fin 16) (c : Int × Int) : (s.setContribution v c).loadDue = s.loadDue := rfl
@[simp] theorem State.autostartDue_setContribution (s : State) (v : Fin 16) (c : Int × Int) : (s.setContribution v c).autostartDue = s.autostartDue := rfl
@[simp] theorem State.nrst_setContribution (s : State) (v : Fin 16) (c : Int × Int) : (s.setContribution v c).nrst = s.nrst := rfl
@[simp] theorem State.power_setContribution (s : State) (v : Fin 16) (c : Int × Int) : (s.setContribution v c).power = s.power := rfl
@[simp] theorem State.damage_setContribution (s : State) (v : Fin 16) (c : Int × Int) : (s.setContribution v c).damage = s.damage := rfl
@[simp] theorem State.openings_setContribution (s : State) (v : Fin 16) (c : Int × Int) : (s.setContribution v c).openings = s.openings := rfl
@[simp] theorem State.pending_setContribution (s : State) (v : Fin 16) (c : Int × Int) : (s.setContribution v c).pending = s.pending := rfl
@[simp] theorem State.voice_setContribution (s : State) (v : Fin 16) (c : Int × Int) (v' : Fin 16) : (s.setContribution v c).voice v' = s.voice v' := rfl
@[simp] theorem State.lane_setContribution (s : State) (v : Fin 16) (c : Int × Int) (l' : Fin 4) : (s.setContribution v c).lane l' = s.lane l' := rfl
@[simp] theorem State.clip_setContribution (s : State) (v : Fin 16) (c : Int × Int) (c' : Fin 64) : (s.setContribution v c).clip c' = s.clip c' := rfl
@[simp] theorem State.binding_setContribution (s : State) (v : Fin 16) (c : Int × Int) (b' : Fin 32) : (s.setContribution v c).binding b' = s.binding b' := rfl

/-! ### raise -/

@[simp] theorem State.voices_raise (s : State) (t : Tally) : (s.raise t).voices = s.voices := rfl
@[simp] theorem State.alc_raise (s : State) (t : Tally) : (s.raise t).alc = s.alc := rfl
@[simp] theorem State.signals_raise (s : State) (t : Tally) : (s.raise t).signals = s.signals := rfl
@[simp] theorem State.clips_raise (s : State) (t : Tally) : (s.raise t).clips = s.clips := rfl
@[simp] theorem State.sectors_raise (s : State) (t : Tally) : (s.raise t).sectors = s.sectors := rfl
@[simp] theorem State.mem_raise (s : State) (t : Tally) : (s.raise t).mem = s.mem := rfl
@[simp] theorem State.op_raise (s : State) (t : Tally) : (s.raise t).op = s.op := rfl
@[simp] theorem State.coldWait_raise (s : State) (t : Tally) : (s.raise t).coldWait = s.coldWait := rfl
@[simp] theorem State.cues_raise (s : State) (t : Tally) : (s.raise t).cues = s.cues := rfl
@[simp] theorem State.lanes_raise (s : State) (t : Tally) : (s.raise t).lanes = s.lanes := rfl
@[simp] theorem State.trg_raise (s : State) (t : Tally) : (s.raise t).trg = s.trg := rfl
@[simp] theorem State.out_raise (s : State) (t : Tally) : (s.raise t).out = s.out := rfl
@[simp] theorem State.progress_raise (s : State) (t : Tally) : (s.raise t).progress = s.progress := rfl
@[simp] theorem State.lnk_raise (s : State) (t : Tally) : (s.raise t).lnk = s.lnk := rfl
@[simp] theorem State.autostart_raise (s : State) (t : Tally) : (s.raise t).autostart = s.autostart := rfl
@[simp] theorem State.loadDue_raise (s : State) (t : Tally) : (s.raise t).loadDue = s.loadDue := rfl
@[simp] theorem State.autostartDue_raise (s : State) (t : Tally) : (s.raise t).autostartDue = s.autostartDue := rfl
@[simp] theorem State.nrst_raise (s : State) (t : Tally) : (s.raise t).nrst = s.nrst := rfl
@[simp] theorem State.power_raise (s : State) (t : Tally) : (s.raise t).power = s.power := rfl
@[simp] theorem State.damage_raise (s : State) (t : Tally) : (s.raise t).damage = s.damage := rfl
@[simp] theorem State.openings_raise (s : State) (t : Tally) : (s.raise t).openings = s.openings := rfl
@[simp] theorem State.pending_raise (s : State) (t : Tally) : (s.raise t).pending = s.pending := rfl
@[simp] theorem State.voice_raise (s : State) (t : Tally) (v' : Fin 16) : (s.raise t).voice v' = s.voice v' := rfl
@[simp] theorem State.lane_raise (s : State) (t : Tally) (l' : Fin 4) : (s.raise t).lane l' = s.lane l' := rfl
@[simp] theorem State.clip_raise (s : State) (t : Tally) (c' : Fin 64) : (s.raise t).clip c' = s.clip c' := rfl
@[simp] theorem State.binding_raise (s : State) (t : Tally) (b' : Fin 32) : (s.raise t).binding b' = s.binding b' := rfl

/-! ### post -/

@[simp] theorem State.voices_post (s : State) (k : EventKind) (n : Nat) (g r : Byte) (x : BitVec 32) : (s.post k n g r x).voices = s.voices := by unfold State.post; split <;> rfl
@[simp] theorem State.alc_post (s : State) (k : EventKind) (n : Nat) (g r : Byte) (x : BitVec 32) : (s.post k n g r x).alc = s.alc := by unfold State.post; split <;> rfl
@[simp] theorem State.signals_post (s : State) (k : EventKind) (n : Nat) (g r : Byte) (x : BitVec 32) : (s.post k n g r x).signals = s.signals := by unfold State.post; split <;> rfl
@[simp] theorem State.clips_post (s : State) (k : EventKind) (n : Nat) (g r : Byte) (x : BitVec 32) : (s.post k n g r x).clips = s.clips := by unfold State.post; split <;> rfl
@[simp] theorem State.sectors_post (s : State) (k : EventKind) (n : Nat) (g r : Byte) (x : BitVec 32) : (s.post k n g r x).sectors = s.sectors := by unfold State.post; split <;> rfl
@[simp] theorem State.mem_post (s : State) (k : EventKind) (n : Nat) (g r : Byte) (x : BitVec 32) : (s.post k n g r x).mem = s.mem := by unfold State.post; split <;> rfl
@[simp] theorem State.op_post (s : State) (k : EventKind) (n : Nat) (g r : Byte) (x : BitVec 32) : (s.post k n g r x).op = s.op := by unfold State.post; split <;> rfl
@[simp] theorem State.coldWait_post (s : State) (k : EventKind) (n : Nat) (g r : Byte) (x : BitVec 32) : (s.post k n g r x).coldWait = s.coldWait := by unfold State.post; split <;> rfl
@[simp] theorem State.cues_post (s : State) (k : EventKind) (n : Nat) (g r : Byte) (x : BitVec 32) : (s.post k n g r x).cues = s.cues := by unfold State.post; split <;> rfl
@[simp] theorem State.lanes_post (s : State) (k : EventKind) (n : Nat) (g r : Byte) (x : BitVec 32) : (s.post k n g r x).lanes = s.lanes := by unfold State.post; split <;> rfl
@[simp] theorem State.trg_post (s : State) (k : EventKind) (n : Nat) (g r : Byte) (x : BitVec 32) : (s.post k n g r x).trg = s.trg := by unfold State.post; split <;> rfl
@[simp] theorem State.out_post (s : State) (k : EventKind) (n : Nat) (g r : Byte) (x : BitVec 32) : (s.post k n g r x).out = s.out := by unfold State.post; split <;> rfl
@[simp] theorem State.progress_post (s : State) (k : EventKind) (n : Nat) (g r : Byte) (x : BitVec 32) : (s.post k n g r x).progress = s.progress := by unfold State.post; split <;> rfl
@[simp] theorem State.lnk_post (s : State) (k : EventKind) (n : Nat) (g r : Byte) (x : BitVec 32) : (s.post k n g r x).lnk = s.lnk := by unfold State.post; split <;> rfl
@[simp] theorem State.autostart_post (s : State) (k : EventKind) (n : Nat) (g r : Byte) (x : BitVec 32) : (s.post k n g r x).autostart = s.autostart := by unfold State.post; split <;> rfl
@[simp] theorem State.loadDue_post (s : State) (k : EventKind) (n : Nat) (g r : Byte) (x : BitVec 32) : (s.post k n g r x).loadDue = s.loadDue := by unfold State.post; split <;> rfl
@[simp] theorem State.autostartDue_post (s : State) (k : EventKind) (n : Nat) (g r : Byte) (x : BitVec 32) : (s.post k n g r x).autostartDue = s.autostartDue := by unfold State.post; split <;> rfl
@[simp] theorem State.nrst_post (s : State) (k : EventKind) (n : Nat) (g r : Byte) (x : BitVec 32) : (s.post k n g r x).nrst = s.nrst := by unfold State.post; split <;> rfl
@[simp] theorem State.power_post (s : State) (k : EventKind) (n : Nat) (g r : Byte) (x : BitVec 32) : (s.post k n g r x).power = s.power := by unfold State.post; split <;> rfl
@[simp] theorem State.damage_post (s : State) (k : EventKind) (n : Nat) (g r : Byte) (x : BitVec 32) : (s.post k n g r x).damage = s.damage := by unfold State.post; split <;> rfl
@[simp] theorem State.openings_post (s : State) (k : EventKind) (n : Nat) (g r : Byte) (x : BitVec 32) : (s.post k n g r x).openings = s.openings := by unfold State.post; split <;> rfl
@[simp] theorem State.pending_post (s : State) (k : EventKind) (n : Nat) (g r : Byte) (x : BitVec 32) : (s.post k n g r x).pending = s.pending := by unfold State.post; split <;> rfl
@[simp] theorem State.voice_post (s : State) (k : EventKind) (n : Nat) (g r : Byte) (x : BitVec 32) (v' : Fin 16) : (s.post k n g r x).voice v' = s.voice v' := by
  simp only [State.voice, State.voices_post]
@[simp] theorem State.lane_post (s : State) (k : EventKind) (n : Nat) (g r : Byte) (x : BitVec 32) (l' : Fin 4) : (s.post k n g r x).lane l' = s.lane l' := by
  simp only [State.lane, State.lanes_post]
@[simp] theorem State.clip_post (s : State) (k : EventKind) (n : Nat) (g r : Byte) (x : BitVec 32) (c' : Fin 64) : (s.post k n g r x).clip c' = s.clip c' := by
  simp only [State.clip, State.clips_post]
@[simp] theorem State.binding_post (s : State) (k : EventKind) (n : Nat) (g r : Byte) (x : BitVec 32) (b' : Fin 32) : (s.post k n g r x).binding b' = s.binding b' := by
  simp only [State.binding, State.trg_post]

/-! ### changeClaim -/

@[simp] theorem State.voices_changeClaim (s : State) (f : Nat → Nat) (c : Fin 64) : (s.changeClaim f c).voices = s.voices := by simp only [State.changeClaim]; split <;> rfl
@[simp] theorem State.alc_changeClaim (s : State) (f : Nat → Nat) (c : Fin 64) : (s.changeClaim f c).alc = s.alc := by simp only [State.changeClaim]; split <;> rfl
@[simp] theorem State.signals_changeClaim (s : State) (f : Nat → Nat) (c : Fin 64) : (s.changeClaim f c).signals = s.signals := by simp only [State.changeClaim]; split <;> rfl
@[simp] theorem State.clips_changeClaim (s : State) (f : Nat → Nat) (c : Fin 64) : (s.changeClaim f c).clips = s.clips.set c { s.clip c with useCount := f (s.clip c).useCount } := by simp only [State.changeClaim]; split <;> rfl
@[simp] theorem State.mem_changeClaim (s : State) (f : Nat → Nat) (c : Fin 64) : (s.changeClaim f c).mem = s.mem := by simp only [State.changeClaim]; split <;> rfl
@[simp] theorem State.op_changeClaim (s : State) (f : Nat → Nat) (c : Fin 64) : (s.changeClaim f c).op = s.op := by simp only [State.changeClaim]; split <;> rfl
@[simp] theorem State.coldWait_changeClaim (s : State) (f : Nat → Nat) (c : Fin 64) : (s.changeClaim f c).coldWait = s.coldWait := by simp only [State.changeClaim]; split <;> rfl
@[simp] theorem State.cues_changeClaim (s : State) (f : Nat → Nat) (c : Fin 64) : (s.changeClaim f c).cues = s.cues := by simp only [State.changeClaim]; split <;> rfl
@[simp] theorem State.lanes_changeClaim (s : State) (f : Nat → Nat) (c : Fin 64) : (s.changeClaim f c).lanes = s.lanes := by simp only [State.changeClaim]; split <;> rfl
@[simp] theorem State.trg_changeClaim (s : State) (f : Nat → Nat) (c : Fin 64) : (s.changeClaim f c).trg = s.trg := by simp only [State.changeClaim]; split <;> rfl
@[simp] theorem State.out_changeClaim (s : State) (f : Nat → Nat) (c : Fin 64) : (s.changeClaim f c).out = s.out := by simp only [State.changeClaim]; split <;> rfl
@[simp] theorem State.progress_changeClaim (s : State) (f : Nat → Nat) (c : Fin 64) : (s.changeClaim f c).progress = s.progress := by simp only [State.changeClaim]; split <;> rfl
@[simp] theorem State.evq_changeClaim (s : State) (f : Nat → Nat) (c : Fin 64) : (s.changeClaim f c).evq = s.evq := by simp only [State.changeClaim]; split <;> rfl
@[simp] theorem State.lnk_changeClaim (s : State) (f : Nat → Nat) (c : Fin 64) : (s.changeClaim f c).lnk = s.lnk := by simp only [State.changeClaim]; split <;> rfl
@[simp] theorem State.autostart_changeClaim (s : State) (f : Nat → Nat) (c : Fin 64) : (s.changeClaim f c).autostart = s.autostart := by simp only [State.changeClaim]; split <;> rfl
@[simp] theorem State.loadDue_changeClaim (s : State) (f : Nat → Nat) (c : Fin 64) : (s.changeClaim f c).loadDue = s.loadDue := by simp only [State.changeClaim]; split <;> rfl
@[simp] theorem State.autostartDue_changeClaim (s : State) (f : Nat → Nat) (c : Fin 64) : (s.changeClaim f c).autostartDue = s.autostartDue := by simp only [State.changeClaim]; split <;> rfl
@[simp] theorem State.nrst_changeClaim (s : State) (f : Nat → Nat) (c : Fin 64) : (s.changeClaim f c).nrst = s.nrst := by simp only [State.changeClaim]; split <;> rfl
@[simp] theorem State.power_changeClaim (s : State) (f : Nat → Nat) (c : Fin 64) : (s.changeClaim f c).power = s.power := by simp only [State.changeClaim]; split <;> rfl
@[simp] theorem State.damage_changeClaim (s : State) (f : Nat → Nat) (c : Fin 64) : (s.changeClaim f c).damage = s.damage := by simp only [State.changeClaim]; split <;> rfl
@[simp] theorem State.openings_changeClaim (s : State) (f : Nat → Nat) (c : Fin 64) : (s.changeClaim f c).openings = s.openings := by simp only [State.changeClaim]; split <;> rfl
@[simp] theorem State.pending_changeClaim (s : State) (f : Nat → Nat) (c : Fin 64) : (s.changeClaim f c).pending = s.pending := by simp only [State.changeClaim]; split <;> rfl
@[simp] theorem State.voice_changeClaim (s : State) (f : Nat → Nat) (c : Fin 64) (v' : Fin 16) : (s.changeClaim f c).voice v' = s.voice v' := by
  simp only [State.voice, State.voices_changeClaim]
@[simp] theorem State.lane_changeClaim (s : State) (f : Nat → Nat) (c : Fin 64) (l' : Fin 4) : (s.changeClaim f c).lane l' = s.lane l' := by
  simp only [State.lane, State.lanes_changeClaim]
@[simp] theorem State.clip_changeClaim (s : State) (f : Nat → Nat) (c : Fin 64) (c' : Fin 64) :
    (s.changeClaim f c).clip c' = if c = c' then { s.clip c with useCount := f (s.clip c).useCount } else s.clip c' := by
  rw [State.clip, State.clips_changeClaim, Table.get_set]
  rfl
@[simp] theorem State.binding_changeClaim (s : State) (f : Nat → Nat) (c : Fin 64) (b' : Fin 32) : (s.changeClaim f c).binding b' = s.binding b' := by
  simp only [State.binding, State.trg_changeClaim]

/-! ### beginStep -/

@[simp] theorem State.voices_beginStep (s : State) (r : OpRecord) : (s.beginStep r).voices = s.voices := rfl
@[simp] theorem State.alc_beginStep (s : State) (r : OpRecord) : (s.beginStep r).alc = s.alc := rfl
@[simp] theorem State.signals_beginStep (s : State) (r : OpRecord) : (s.beginStep r).signals = s.signals := rfl
@[simp] theorem State.clips_beginStep (s : State) (r : OpRecord) : (s.beginStep r).clips = s.clips := rfl
@[simp] theorem State.sectors_beginStep (s : State) (r : OpRecord) : (s.beginStep r).sectors = s.sectors.set r.sector (s.sectors.get r.sector).begun := rfl
@[simp] theorem State.mem_beginStep (s : State) (r : OpRecord) : (s.beginStep r).mem = s.mem := rfl
@[simp] theorem State.op_beginStep (s : State) (r : OpRecord) : (s.beginStep r).op = some r := rfl
@[simp] theorem State.coldWait_beginStep (s : State) (r : OpRecord) : (s.beginStep r).coldWait = s.coldWait := rfl
@[simp] theorem State.cues_beginStep (s : State) (r : OpRecord) : (s.beginStep r).cues = s.cues := rfl
@[simp] theorem State.lanes_beginStep (s : State) (r : OpRecord) : (s.beginStep r).lanes = s.lanes := rfl
@[simp] theorem State.trg_beginStep (s : State) (r : OpRecord) : (s.beginStep r).trg = s.trg := rfl
@[simp] theorem State.out_beginStep (s : State) (r : OpRecord) : (s.beginStep r).out = s.out := rfl
@[simp] theorem State.progress_beginStep (s : State) (r : OpRecord) : (s.beginStep r).progress = s.progress := rfl
@[simp] theorem State.evq_beginStep (s : State) (r : OpRecord) : (s.beginStep r).evq = s.evq := rfl
@[simp] theorem State.lnk_beginStep (s : State) (r : OpRecord) : (s.beginStep r).lnk = s.lnk := rfl
@[simp] theorem State.autostart_beginStep (s : State) (r : OpRecord) : (s.beginStep r).autostart = s.autostart := rfl
@[simp] theorem State.loadDue_beginStep (s : State) (r : OpRecord) : (s.beginStep r).loadDue = s.loadDue := rfl
@[simp] theorem State.autostartDue_beginStep (s : State) (r : OpRecord) : (s.beginStep r).autostartDue = s.autostartDue := rfl
@[simp] theorem State.nrst_beginStep (s : State) (r : OpRecord) : (s.beginStep r).nrst = s.nrst := rfl
@[simp] theorem State.power_beginStep (s : State) (r : OpRecord) : (s.beginStep r).power = s.power := rfl
@[simp] theorem State.damage_beginStep (s : State) (r : OpRecord) : (s.beginStep r).damage = s.damage := rfl
@[simp] theorem State.openings_beginStep (s : State) (r : OpRecord) : (s.beginStep r).openings = s.openings := rfl
@[simp] theorem State.pending_beginStep (s : State) (r : OpRecord) : (s.beginStep r).pending = s.pending := rfl
@[simp] theorem State.voice_beginStep (s : State) (r : OpRecord) (v' : Fin 16) : (s.beginStep r).voice v' = s.voice v' := rfl
@[simp] theorem State.lane_beginStep (s : State) (r : OpRecord) (l' : Fin 4) : (s.beginStep r).lane l' = s.lane l' := rfl
@[simp] theorem State.clip_beginStep (s : State) (r : OpRecord) (c' : Fin 64) : (s.beginStep r).clip c' = s.clip c' := rfl
@[simp] theorem State.binding_beginStep (s : State) (r : OpRecord) (b' : Fin 32) : (s.beginStep r).binding b' = s.binding b' := rfl

/-! ### oweReply -/

@[simp] theorem State.voices_oweReply (s : State) : (s.oweReply).voices = s.voices := rfl
@[simp] theorem State.alc_oweReply (s : State) : (s.oweReply).alc = s.alc := rfl
@[simp] theorem State.signals_oweReply (s : State) : (s.oweReply).signals = s.signals := rfl
@[simp] theorem State.clips_oweReply (s : State) : (s.oweReply).clips = s.clips := rfl
@[simp] theorem State.sectors_oweReply (s : State) : (s.oweReply).sectors = s.sectors := rfl
@[simp] theorem State.mem_oweReply (s : State) : (s.oweReply).mem = s.mem := rfl
@[simp] theorem State.op_oweReply (s : State) : (s.oweReply).op = s.op := rfl
@[simp] theorem State.coldWait_oweReply (s : State) : (s.oweReply).coldWait = s.coldWait := rfl
@[simp] theorem State.cues_oweReply (s : State) : (s.oweReply).cues = s.cues := rfl
@[simp] theorem State.lanes_oweReply (s : State) : (s.oweReply).lanes = s.lanes := rfl
@[simp] theorem State.trg_oweReply (s : State) : (s.oweReply).trg = s.trg := rfl
@[simp] theorem State.out_oweReply (s : State) : (s.oweReply).out = s.out := rfl
@[simp] theorem State.progress_oweReply (s : State) : (s.oweReply).progress = s.progress := rfl
@[simp] theorem State.evq_oweReply (s : State) : (s.oweReply).evq = s.evq := rfl
@[simp] theorem State.lnk_oweReply (s : State) : (s.oweReply).lnk = { s.lnk with replyOwed := true } := rfl
@[simp] theorem State.autostart_oweReply (s : State) : (s.oweReply).autostart = s.autostart := rfl
@[simp] theorem State.loadDue_oweReply (s : State) : (s.oweReply).loadDue = s.loadDue := rfl
@[simp] theorem State.autostartDue_oweReply (s : State) : (s.oweReply).autostartDue = s.autostartDue := rfl
@[simp] theorem State.nrst_oweReply (s : State) : (s.oweReply).nrst = s.nrst := rfl
@[simp] theorem State.power_oweReply (s : State) : (s.oweReply).power = s.power := rfl
@[simp] theorem State.damage_oweReply (s : State) : (s.oweReply).damage = s.damage := rfl
@[simp] theorem State.openings_oweReply (s : State) : (s.oweReply).openings = s.openings := rfl
@[simp] theorem State.pending_oweReply (s : State) : (s.oweReply).pending = s.pending := rfl
@[simp] theorem State.voice_oweReply (s : State) (v' : Fin 16) : (s.oweReply).voice v' = s.voice v' := rfl
@[simp] theorem State.lane_oweReply (s : State) (l' : Fin 4) : (s.oweReply).lane l' = s.lane l' := rfl
@[simp] theorem State.clip_oweReply (s : State) (c' : Fin 64) : (s.oweReply).clip c' = s.clip c' := rfl
@[simp] theorem State.binding_oweReply (s : State) (b' : Fin 32) : (s.oweReply).binding b' = s.binding b' := rfl

/-! ### sendReply -/

@[simp] theorem State.voices_sendReply (s : State) (tag type : Byte) (a : Answer) : (s.sendReply tag type a).voices = s.voices := rfl
@[simp] theorem State.alc_sendReply (s : State) (tag type : Byte) (a : Answer) : (s.sendReply tag type a).alc = s.alc := rfl
@[simp] theorem State.signals_sendReply (s : State) (tag type : Byte) (a : Answer) : (s.sendReply tag type a).signals = s.signals := rfl
@[simp] theorem State.clips_sendReply (s : State) (tag type : Byte) (a : Answer) : (s.sendReply tag type a).clips = s.clips := rfl
@[simp] theorem State.sectors_sendReply (s : State) (tag type : Byte) (a : Answer) : (s.sendReply tag type a).sectors = s.sectors := rfl
@[simp] theorem State.mem_sendReply (s : State) (tag type : Byte) (a : Answer) : (s.sendReply tag type a).mem = s.mem := rfl
@[simp] theorem State.op_sendReply (s : State) (tag type : Byte) (a : Answer) : (s.sendReply tag type a).op = s.op := rfl
@[simp] theorem State.coldWait_sendReply (s : State) (tag type : Byte) (a : Answer) : (s.sendReply tag type a).coldWait = s.coldWait := rfl
@[simp] theorem State.cues_sendReply (s : State) (tag type : Byte) (a : Answer) : (s.sendReply tag type a).cues = s.cues := rfl
@[simp] theorem State.lanes_sendReply (s : State) (tag type : Byte) (a : Answer) : (s.sendReply tag type a).lanes = s.lanes := rfl
@[simp] theorem State.trg_sendReply (s : State) (tag type : Byte) (a : Answer) : (s.sendReply tag type a).trg = s.trg := rfl
@[simp] theorem State.out_sendReply (s : State) (tag type : Byte) (a : Answer) : (s.sendReply tag type a).out = s.out := rfl
@[simp] theorem State.progress_sendReply (s : State) (tag type : Byte) (a : Answer) : (s.sendReply tag type a).progress = s.progress := rfl
@[simp] theorem State.evq_sendReply (s : State) (tag type : Byte) (a : Answer) : (s.sendReply tag type a).evq = s.evq := rfl
@[simp] theorem State.lnk_sendReply (s : State) (tag type : Byte) (a : Answer) : (s.sendReply tag type a).lnk = { s.lnk with reply := some ⟨tag, replyType type, a.status, a.data⟩ } := rfl
@[simp] theorem State.autostart_sendReply (s : State) (tag type : Byte) (a : Answer) : (s.sendReply tag type a).autostart = s.autostart := rfl
@[simp] theorem State.loadDue_sendReply (s : State) (tag type : Byte) (a : Answer) : (s.sendReply tag type a).loadDue = s.loadDue := rfl
@[simp] theorem State.autostartDue_sendReply (s : State) (tag type : Byte) (a : Answer) : (s.sendReply tag type a).autostartDue = s.autostartDue := rfl
@[simp] theorem State.nrst_sendReply (s : State) (tag type : Byte) (a : Answer) : (s.sendReply tag type a).nrst = s.nrst := rfl
@[simp] theorem State.power_sendReply (s : State) (tag type : Byte) (a : Answer) : (s.sendReply tag type a).power = s.power := rfl
@[simp] theorem State.damage_sendReply (s : State) (tag type : Byte) (a : Answer) : (s.sendReply tag type a).damage = s.damage := rfl
@[simp] theorem State.openings_sendReply (s : State) (tag type : Byte) (a : Answer) : (s.sendReply tag type a).openings = s.openings := rfl
@[simp] theorem State.pending_sendReply (s : State) (tag type : Byte) (a : Answer) : (s.sendReply tag type a).pending = s.pending := rfl
@[simp] theorem State.voice_sendReply (s : State) (tag type : Byte) (a : Answer) (v' : Fin 16) : (s.sendReply tag type a).voice v' = s.voice v' := rfl
@[simp] theorem State.lane_sendReply (s : State) (tag type : Byte) (a : Answer) (l' : Fin 4) : (s.sendReply tag type a).lane l' = s.lane l' := rfl
@[simp] theorem State.clip_sendReply (s : State) (tag type : Byte) (a : Answer) (c' : Fin 64) : (s.sendReply tag type a).clip c' = s.clip c' := rfl
@[simp] theorem State.binding_sendReply (s : State) (tag type : Byte) (a : Answer) (b' : Fin 32) : (s.sendReply tag type a).binding b' = s.binding b' := rfl

/-- The sectors' use counts after a claim of a clip has changed (R50). -/
theorem State.get_sectors_changeClaim (s : State) (f : Nat → Nat) (c : Fin 64) (i : Fin 128) :
    (s.changeClaim f c).sectors.get i = match (s.clip c).record with
      | none => s.sectors.get i
      | some r => if r.touches i = true then { s.sectors.get i with useCount := f (s.sectors.get i).useCount }
          else s.sectors.get i := by
  cases h : (s.clip c).record with
  | none => simp [State.changeClaim, h]
  | some r => simp [State.changeClaim, h, changeUse]

/-- The tallies after one is raised (R156). -/
theorem State.evq_raise (s : State) (t : Tally) :
    (s.raise t).evq = { s.evq with tallies := s.evq.tallies.set t.index (min 65535 (s.evq.tallies.get t.index + 1)) } :=
  rfl

end Sys2Proof.Machine
end

