-- ==== Sys2Proof/Laws/Lanes.lean ====
section
/-! SUPPORT. A lane's fetch and its running on, case by case: no proof about a run need unfold the recursion. -/

namespace Sys2Proof.Machine

theorem State.setLane_setLane (s : State) (l : Fin 4) (x y : Lane) : (s.setLane l x).setLane l y = s.setLane l y := by
  simp [State.setLane, Table.set_set_self]

theorem State.post_setLane (s : State) (l : Fin 4) (x : Lane) (k n g r v) :
    (s.setLane l x).post k n g r v = (s.post k n g r v).setLane l x := by
  unfold State.post
  rw [State.evq_setLane]
  split <;> rfl

/-! ### Points at which another command may be taken -/

theorem State.opening_fst (s : State) : s.opening.1 = s.openings.headD false := rfl

theorem State.opening_snd (s : State) : s.opening.2 = { s with openings := s.openings.tail } := rfl

/-! ### Fetching (R78) -/

theorem State.fetch_empty {s : State} {k : Fin 256} (h : s.cues.get k = none) (l : Fin 4) :
    s.fetch l k = s.setLane l ((s.lane l).starvedAt k) := by
  unfold State.fetch
  rw [h]

theorem State.fetch_block {s : State} {k : Fin 256} {b : CueBlock} (h : s.cues.get k = some b) (l : Fin 4) :
    s.fetch l k = s.setLane l ((s.lane l).runningAt k) := by
  unfold State.fetch
  rw [h]

/-! ### The block a lane takes next -/

theorem State.runningBlock_stands {s : State} {l : Fin 4} (h : (s.lane l).state ≠ .running) : s.runningBlock l = none :=
  if_neg h

theorem State.runningBlock_running {s : State} {l : Fin 4} {k : Fin 256} {b : CueBlock} (h : (s.lane l).state = .running)
    (hk : (s.lane l).slot = some k) (hb : s.cues.get k = some b) : s.runningBlock l = some (k, b) := by
  unfold State.runningBlock State.currentBlock
  rw [if_pos h, hk]
  dsimp only
  rw [hb]
  rfl

theorem State.takeNext_stands {s : State} {l : Fin 4} (h : (s.lane l).state ≠ .running) : s.takeNext l = s := by
  unfold State.takeNext
  rw [State.runningBlock_stands h]

theorem State.takeNext_running {s : State} {l : Fin 4} {k : Fin 256} {b : CueBlock} (h : (s.lane l).state = .running)
    (hk : (s.lane l).slot = some k) (hb : s.cues.get k = some b) : s.takeNext l = s.takeBlock l k b := by
  unfold State.takeNext
  rw [State.runningBlock_running h hk hb]

theorem State.takeBlock_completes {s t : State} {l : Fin 4} {k : Fin 256} {b : CueBlock} {n : Option (Fin 256)}
    (h : s.takeOp l k b = (.completes n, t)) : s.takeBlock l k b = t.completeAtOnce l k b n := by
  unfold State.takeBlock
  rw [h]

theorem State.takeBlock_stands {s t : State} {l : Fin 4} {k : Fin 256} {b : CueBlock}
    (h : s.takeOp l k b = (.stands, t)) : s.takeBlock l k b = t := by
  unfold State.takeBlock
  rw [h]

/-! ### A block that completes at once (R80) -/

/-- The block completes, and the lane starves at the EMPTY slot it goes to. -/
theorem State.completeAtOnce_starves {s : State} {l : Fin 4} {k n : Fin 256} {b : CueBlock} {next : Option (Fin 256)}
    (hb : (s.lane l).budget < 63) (hnote : b.note = false)
    (hn : next = some n ∨ (next = none ∧ n = b.link ∧ b.pause = false ∧ b.last = false ∧ (s.lane l).pauseRequested = false))
    (he : s.cues.get n = none) :
    s.completeAtOnce l k b next = s.setLane l { s.lane l with state := .starved, slot := some n, budget := 0 } := by
  unfold State.completeAtOnce State.finishBlock
  dsimp only
  rw [if_neg (show ¬Config.runBudget ≤ (s.lane l).budget + 1 by simp only [Config.runBudget]; omega)]
  rcases hn with rfl | ⟨rfl, rfl, h1, h2, h3⟩
  · simp only [hnote, Bool.false_eq_true, if_false]
    rw [State.fetch_empty (by simpa using he)]
    simp [Lane.starvedAt, State.setLane_setLane]
  · simp only [hnote, h1, h2, h3, State.lane_setLane, if_true, Bool.or_self, Bool.false_eq_true, if_false]
    rw [State.fetch_empty (by simpa using he)]
    simp [Lane.starvedAt, State.setLane_setLane]

/-- The 64th block of a run faults the lane (R81). -/
theorem State.completeAtOnce_runaway {s : State} {l : Fin 4} (hb : (s.lane l).budget = 63) (k : Fin 256) (b : CueBlock)
    (next : Option (Fin 256)) :
    s.completeAtOnce l k b next = (s.setLane l { s.lane l with budget := 64 }).faultLane l k .runaway := by
  unfold State.completeAtOnce
  dsimp only
  rw [if_pos (by simp only [Config.runBudget]; omega), hb]

/-! ### Running on (R79) -/

/-- A lane that is not RUNNING takes no further block. -/
theorem State.runOn_stands {s : State} {l : Fin 4} (h : (s.lane l).state ≠ .running) (n : Nat) : State.runOn n s l = s := by
  cases n with
  | zero => rfl
  | succ n =>
    unfold State.runOn
    rw [State.runningBlock_stands h]
    rfl

/-- Another command is taken before the next block of the run. -/
theorem State.runOn_opened {s : State} {l : Fin 4} (h : (s.runningBlock l).isSome = true) (ho : s.opening.1 = true) (n : Nat) :
    State.runOn (n + 1) s l = s.opening.2 := by
  unfold State.runOn
  rw [if_neg (by rw [← Option.not_isSome, h]; decide), if_pos ho]

/-- The next block of the run is taken. -/
theorem State.runOn_next {s : State} {l : Fin 4} (h : (s.runningBlock l).isSome = true) (ho : s.opening.1 = false) (n : Nat) :
    State.runOn (n + 1) s l = State.runOn n (s.opening.2.takeNext l) l := by
  conv => lhs; unfold State.runOn
  rw [if_neg (by rw [← Option.not_isSome, h]; decide), if_neg (by rw [ho]; decide)]

/-- A lane that stands after the block it has fetched. -/
theorem State.runLane_of_takeNext {s t : State} {l : Fin 4} (h : s.takeNext l = t) (ht : (t.lane l).state ≠ .running) :
    s.runLane l = t := by
  unfold State.runLane
  rw [h, State.runOn_stands ht]

theorem State.runLane_stands {s : State} {l : Fin 4} (h : (s.lane l).state ≠ .running) : s.runLane l = s :=
  State.runLane_of_takeNext (State.takeNext_stands h) h

theorem State.settle_stands {s : State} {l : Fin 4} (h : (s.lane l).state ≠ .running) (n : Nat) : State.settle n s l = s := by
  cases n with
  | zero => rfl
  | succ n =>
    unfold State.settle
    rw [State.runningBlock_stands h]
    rfl

/-- A lane whose wait ends at a block from which it does not go on. -/
theorem State.wakeLane_of_endWait {s t : State} {l : Fin 4} (h : s.endWait l = t) (ht : (t.lane l).state ≠ .running) :
    s.wakeLane l = t := by
  unfold State.wakeLane
  rw [h, State.runOn_stands ht]

/-! ### A tick (R83, R91) -/

/-- A lane that stands after its turn of a tick: the next lane is taken. -/
theorem State.tickInTurn_stands {s t : State} {l : Fin 4} (h : s.tickLane l = t) (ht : (t.lane l).state ≠ .running)
    (rest : List (Fin 4)) : s.tickInTurn (l :: rest) = t.tickInTurn rest := by
  cases rest with
  | nil =>
    unfold State.tickInTurn
    rw [h, State.runOn_stands ht, ite_self]
  | cons =>
    conv => lhs; unfold State.tickInTurn
    rw [h, State.settle_stands ht, ite_self]

/-- A woken lane with a lane behind it runs on until it stands before that lane is taken. -/
theorem State.tickInTurn_runs_on {s : State} {l : Fin 4} (h : (s.lane l).waitEndsNext = true) (j : Fin 4)
    (rest : List (Fin 4)) :
    s.tickInTurn (l :: j :: rest) = (State.settle laneFuel (s.tickLane l) l).tickInTurn (j :: rest) := by
  conv => lhs; unfold State.tickInTurn
  rw [if_pos h]

/-! ### A step with no command waiting (log 6) -/

theorem State.goOn_idle {s : State} (hr : s.alc.retry = none) (h : ∀ l : Fin 4, (s.lane l).state ≠ .running) :
    s.goOn = s := by
  have hf : (allLanes.find? fun l => decide ((s.lane l).state = .running)) = none := by
    rw [List.find?_eq_none]
    intro l _
    simpa using h l
  unfold State.goOn
  rw [hr, hf]
  rfl

/-- The lowest RUNNING lane goes on. -/
theorem State.goOn_running {s : State} {l : Fin 4} (hr : s.alc.retry = none) (h : (s.lane l).state = .running)
    (hl : ∀ j : Fin 4, j < l → (s.lane j).state ≠ .running) : s.goOn = s.runLane l := by
  have hf : (allLanes.find? fun l => decide ((s.lane l).state = .running)) = some l := by
    have lower (j : Fin 4) (hj : j < l) : decide ((s.lane j).state = .running) = false := decide_eq_false (hl j hj)
    rcases (show ∀ l : Fin 4, l = 0 ∨ l = 1 ∨ l = 2 ∨ l = 3 by decide) l with e | e | e | e <;> subst e <;>
      simp [allLanes, List.find?, h, lower]
  unfold State.goOn
  rw [hr, hf]
  rfl

/-- The lowest RUNNING lane takes the block it has fetched, and goes on. -/
theorem step_running {s : State} {l : Fin 4} {k : Fin 256} {b : CueBlock} (hp : s.pending = []) (hr : s.alc.retry = none)
    (h : (s.lane l).state = .running) (hl : ∀ j : Fin 4, j < l → (s.lane j).state ≠ .running)
    (hk : (s.lane l).slot = some k) (hb : s.cues.get k = some b) :
    step s = .next (State.runOn laneFuel (s.takeBlock l k b) l) := by
  unfold step
  rw [hp]
  dsimp only
  rw [State.goOn_running hr h hl]
  unfold State.runLane
  rw [State.takeNext_running h hk hb]

theorem State.goOn_retry {s : State} (hr : s.alc.retry.isSome = true) : s.goOn = s.retryRound := if_pos hr

end Sys2Proof.Machine
end

