-- ==== Sys2Proof/Laws/Lines.lean ====
section
/-! SUPPORT. The two receivers: what is in reception on a line, and the end of a byte by what was noted of it (R100, R101, R114,
R161, R162, R169). -/

namespace Sys2Proof.Machine

/-- A restart at a new rate leaves no byte in reception to be taken (R114, R169). -/
theorem Reception.drop_eq (r : Reception) : r.drop = if r = .idle then .idle else .dropped := by cases r <;> rfl

/-! ### HRX -/

@[simp] theorem State.noteLnk_off {s : State} (h : s.lnk.rx = .off) (r : Reception) : s.noteLnk r = s := if_pos h

@[simp] theorem State.noteLnk_on {s : State} (h : s.lnk.rx ≠ .off) (r : Reception) :
    s.noteLnk r = { s with lnk := { s.lnk with reception := r } } := if_neg h

@[simp] theorem State.rx_noteLnk (s : State) (r : Reception) : (s.noteLnk r).lnk.rx = s.lnk.rx := by
  unfold State.noteLnk
  split <;> rfl

/-- A receiver that is OFF takes no byte (R161). -/
theorem State.hostByte_off {s : State} (h : s.lnk.rx = .off) (b : Byte) (good : Bool) : s.hostByte b good = s := by
  simp [State.hostByte, State.hostTake, h]

/-- The end of a byte that was in reception at a new rate (R169). -/
theorem State.hostByte_dropped {s : State} (h : s.lnk.reception = .dropped) (b : Byte) (good : Bool) :
    s.hostByte b good = s.noteLnk .idle := if_pos h

/-- The end of any other byte (R161). -/
theorem State.hostByte_taken {s : State} (h : s.lnk.reception ≠ .dropped) (b : Byte) (good : Bool) :
    s.hostByte b good = (s.noteLnk .idle).hostTake b good := if_neg h

/-- A hunting receiver takes a good sync and no other byte (R161). -/
theorem State.hostTake_hunting {s : State} (h : s.lnk.rx = .hunting) (b : Byte) (good : Bool) :
    s.hostTake b good = if good = true ∧ b = 0xB4 then { s with lnk := s.lnk.collect [] none } else s := by
  simp [State.hostTake, h]

/-- A collecting receiver keeps a good byte and discards its frame at a bad one (R161). -/
theorem State.hostTake_collecting {s : State} (h : s.lnk.rx = .collecting) (b : Byte) (good : Bool) :
    s.hostTake b good = if good = true then s.keepByte (s.lnk.bytes ++ [b]) else s.discardFrame := by
  simp [State.hostTake, h]

/-! ### TRX -/

@[simp] theorem State.noteTrg_off {s : State} (h : s.trg.rx = .off) (r : Reception) : s.noteTrg r = s := if_pos h

@[simp] theorem State.noteTrg_on {s : State} (h : s.trg.rx ≠ .off) (r : Reception) :
    s.noteTrg r = { s with trg := { s.trg with reception := r } } := if_neg h

@[simp] theorem State.rx_noteTrg (s : State) (r : Reception) : (s.noteTrg r).trg.rx = s.trg.rx := by
  unfold State.noteTrg
  split <;> rfl

/-- A receiver that is OFF takes no byte (R100). -/
theorem State.trigByte_off {s : State} (h : s.trg.rx = .off) (b : Byte) (good : Bool) : s.trigByte b good = s := by
  simp [State.trigByte, State.trigTake, h]

/-- The end of a byte that was in reception at a new rate (R114). -/
theorem State.trigByte_dropped {s : State} (h : s.trg.reception = .dropped) (b : Byte) (good : Bool) :
    s.trigByte b good = s.noteTrg .idle := if_pos h

/-- The end of any other byte (R100). -/
theorem State.trigByte_taken {s : State} (h : s.trg.reception ≠ .dropped) (b : Byte) (good : Bool) :
    s.trigByte b good = (s.noteTrg .idle).trigTake b good := if_neg h

/-- A hunting receiver takes a good sync and no other byte (R100). -/
theorem State.trigTake_hunting {s : State} (h : s.trg.rx = .hunting) (b : Byte) (good : Bool) :
    s.trigTake b good = if good = true ∧ b = 0xC3 then { s with trg := s.trg.collect [] } else s := by
  simp [State.trigTake, h]

/-- A collecting receiver keeps a good byte until six stand, and discards its frame at a bad one (R100, R102). -/
theorem State.trigTake_collecting {s : State} (h : s.trg.rx = .collecting) (b : Byte) (good : Bool) :
    s.trigTake b good =
      if good = true then
        if s.trg.bytes.length + 1 < 6 then { s with trg := s.trg.collect (s.trg.bytes ++ [b]) }
        else ({ s with trg := s.trg.hunt }).trigFrame (s.trg.bytes ++ [b])
      else ({ s with trg := s.trg.hunt }).raise .trigFraming := by
  simp [State.trigTake, h]

end Sys2Proof.Machine
end

