-- ==== Sys2Proof/Laws/Memory.lean ====
section
/-! SUPPORT. The store's bytes: what is read after each operation, and that every operation keeps the canonical form. -/

namespace Sys2Proof.Machine

namespace Memory

/-! ### Reading -/

theorem read_cell_of_ne (m : Memory) {a x : Nat} (b : Byte) (h : a ≠ x) : (cell a b m).read x = m.read x := by
  unfold cell
  split
  · rfl
  · simp [read, h]

/-- A write changes no other byte. -/
theorem read_write_of_ne (m : Memory) {a x : Nat} (b : Byte) (h : a ≠ x) : (m.write a b).read x = m.read x := by
  induction m with
  | nil => exact read_cell_of_ne _ b h
  | cons p rest ih =>
    obtain ⟨k, c⟩ := p
    simp only [write]
    split
    · exact read_cell_of_ne _ b h
    · split
      · next e => subst e; rw [read_cell_of_ne _ b h]; simp [read, h]
      · simp only [read]; split
        · rfl
        · exact ih

theorem read_of_lt {lo a : Nat} {m : Memory} (h : wfFrom lo m = true) (hl : a < lo) : m.read a = Config.erasedByte := by
  induction m generalizing lo with
  | nil => rfl
  | cons p rest ih =>
    obtain ⟨k, c⟩ := p
    simp only [wfFrom, Bool.and_eq_true, decide_eq_true_eq] at h
    have : k ≠ a := by omega
    simp only [read, if_neg this]
    exact ih h.2 (by omega)

theorem read_cell_self {m : Memory} {a : Nat} (b : Byte) (h : wfFrom (a + 1) m = true) : (cell a b m).read a = b := by
  unfold cell
  split
  · next e => rw [e]; exact read_of_lt h (by omega)
  · simp [read]

theorem wfFrom_mono {lo lo' : Nat} {m : Memory} (h : wfFrom lo m = true) (hl : lo' ≤ lo) : wfFrom lo' m = true := by
  cases m with
  | nil => rfl
  | cons p rest =>
    obtain ⟨k, c⟩ := p
    simp only [wfFrom, Bool.and_eq_true, decide_eq_true_eq] at h ⊢
    exact ⟨⟨by omega, h.1.2⟩, h.2⟩

/-- A write sets its byte. -/
theorem read_write_self {lo : Nat} {m : Memory} (a : Nat) (b : Byte) (h : wfFrom lo m = true) : (m.write a b).read a = b := by
  induction m generalizing lo with
  | nil => exact read_cell_self b rfl
  | cons p rest ih =>
    obtain ⟨k, c⟩ := p
    have h' := h
    simp only [wfFrom, Bool.and_eq_true, decide_eq_true_eq] at h'
    simp only [write]
    split
    · next hk =>
      refine read_cell_self b ?_
      simp only [wfFrom, Bool.and_eq_true, decide_eq_true_eq]
      exact ⟨⟨by omega, h'.1.2⟩, h'.2⟩
    · split
      · next e => subst e; exact read_cell_self b h'.2
      · next hne =>
        have : k ≠ a := fun e => hne e.symm
        simp only [read, if_neg this]
        exact ih h'.2

/-- A byte after a write, in a store in canonical form. -/
theorem read_write {m : Memory} (a x : Nat) (b : Byte) (h : m.wf = true) :
    (m.write a b).read x = if a = x then b else m.read x := by
  split
  · next e => subst e; exact read_write_self a b h
  · next e => exact read_write_of_ne m b e

/-- A byte after an erase. -/
theorem read_erase (m : Memory) (a n x : Nat) :
    (m.erase a n).read x = if a ≤ x ∧ x < a + n then Config.erasedByte else m.read x := by
  induction m with
  | nil => simp [erase, read]
  | cons p rest ih =>
    obtain ⟨k, c⟩ := p
    have ih' : read (rest.filter fun c => decide (c.1 < a) || decide (a + n ≤ c.1)) x
        = if a ≤ x ∧ x < a + n then Config.erasedByte else read rest x := ih
    simp only [erase, List.filter_cons]
    by_cases hk : k < a ∨ a + n ≤ k
    · have : (decide (k < a) || decide (a + n ≤ k)) = true := by simpa using hk
      simp only [this, if_true, read]
      split
      · next e => subst e; rw [if_neg (by omega)]
      · exact ih'
    · have : (decide (k < a) || decide (a + n ≤ k)) = false := by simp; omega
      simp only [this, read]
      rw [if_neg (by simp), ih']
      by_cases e : k = x
      · subst e; rw [if_pos (by omega), if_pos (by omega)]
      · simp [e]

/-! ### The canonical form -/

theorem wf_cell {m : Memory} {a : Nat} {b : Byte} {lo : Nat} (hl : lo ≤ a) (h : wfFrom (a + 1) m = true) :
    wfFrom lo (cell a b m) = true := by
  unfold cell
  split
  · exact wfFrom_mono h (by omega)
  · next hb =>
    simp only [wfFrom, Bool.and_eq_true, decide_eq_true_eq]
    exact ⟨⟨hl, hb⟩, h⟩

theorem wfFrom_write {m : Memory} {lo : Nat} (a : Nat) (b : Byte) (hl : lo ≤ a) (h : wfFrom lo m = true) :
    wfFrom lo (m.write a b) = true := by
  induction m generalizing lo with
  | nil => exact wf_cell hl rfl
  | cons p rest ih =>
    obtain ⟨k, c⟩ := p
    have h' := h
    simp only [wfFrom, Bool.and_eq_true, decide_eq_true_eq] at h'
    simp only [write]
    split
    · next hk =>
      refine wf_cell hl ?_
      simp only [wfFrom, Bool.and_eq_true, decide_eq_true_eq]
      exact ⟨⟨by omega, h'.1.2⟩, h'.2⟩
    · split
      · next e => subst e; exact wf_cell hl h'.2
      · next hk hne =>
        simp only [wfFrom, Bool.and_eq_true, decide_eq_true_eq]
        exact ⟨h'.1, ih (by omega) h'.2⟩

/-- A write keeps the canonical form. -/
theorem wf_write {m : Memory} (a : Nat) (b : Byte) (h : m.wf = true) : (m.write a b).wf = true :=
  wfFrom_write a b (Nat.zero_le a) h

/-- Writing bytes keeps the canonical form. -/
theorem wf_writeBytes {m : Memory} (a : Nat) (l : List Byte) (h : m.wf = true) : (m.writeBytes a l).wf = true := by
  induction l generalizing m a with
  | nil => exact h
  | cons b rest ih => exact ih (a + 1) (wf_write a b h)

/-- A program keeps the canonical form. -/
theorem wf_program {m : Memory} (a : Nat) (l : List Byte) (h : m.wf = true) : (m.program a l).wf = true := by
  induction l generalizing m a with
  | nil => exact h
  | cons b rest ih => exact ih (a + 1) (wf_write a _ h)

theorem wfFrom_filter {lo : Nat} {m : Memory} (p : Host.Cell → Bool) (h : wfFrom lo m = true) :
    wfFrom lo (m.filter p) = true := by
  induction m generalizing lo with
  | nil => rfl
  | cons q rest ih =>
    obtain ⟨k, c⟩ := q
    have h' := h
    simp only [wfFrom, Bool.and_eq_true, decide_eq_true_eq] at h'
    rw [List.filter_cons]
    split
    · simp only [wfFrom, Bool.and_eq_true, decide_eq_true_eq]
      exact ⟨h'.1, ih h'.2⟩
    · exact wfFrom_mono (ih h'.2) (by omega)

/-- An erase keeps the canonical form. -/
theorem wf_erase {m : Memory} (a n : Nat) (h : m.wf = true) : (m.erase a n).wf = true :=
  wfFrom_filter _ h

/-! ### Many bytes -/

/-- Writing bytes changes no byte outside them. -/
theorem read_writeBytes_outside (m : Memory) (a x : Nat) (l : List Byte) (h : x < a ∨ a + l.length ≤ x) :
    (m.writeBytes a l).read x = m.read x := by
  induction l generalizing m a with
  | nil => rfl
  | cons b rest ih =>
    simp only [List.length_cons] at h
    simp only [writeBytes]
    rw [ih _ _ (by omega), read_write_of_ne m b (by omega)]

/-- A program changes no byte outside its own. -/
theorem read_program_outside (m : Memory) (a x : Nat) (l : List Byte) (h : x < a ∨ a + l.length ≤ x) :
    (m.program a l).read x = m.read x := by
  induction l generalizing m a with
  | nil => rfl
  | cons b rest ih =>
    simp only [List.length_cons] at h
    simp only [program]
    rw [ih _ _ (by omega), read_write_of_ne m _ (by omega)]

/-- A programmed byte: each bit is 0 where it was 0 or is programmed 0 (R117). -/
theorem read_program {m : Memory} (a k : Nat) (l : List Byte) (hm : m.wf = true) (hk : k < l.length) :
    (m.program a l).read (a + k) = m.read (a + k) &&& l[k] := by
  induction l generalizing m a k with
  | nil => simp at hk
  | cons b rest ih =>
    simp only [program]
    cases k with
    | zero =>
      rw [read_program_outside _ _ _ _ (Or.inl (by omega))]
      simp [read_write_self a _ hm]
    | succ k =>
      have := ih (a + 1) k (wf_write a (m.read a &&& b) hm) (by simpa using hk)
      rw [show a + (k + 1) = a + 1 + k by omega, this, read_write_of_ne m _ (by omega)]
      rfl

@[simp] theorem length_readBytes (m : Memory) (a n : Nat) : (m.readBytes a n).length = n := by
  induction n generalizing a with
  | zero => rfl
  | succ n ih => simp [readBytes, ih]

theorem getElem_readBytes (m : Memory) (a n k : Nat) (h : k < (m.readBytes a n).length) :
    (m.readBytes a n)[k] = m.read (a + k) := by
  induction n generalizing a k with
  | zero => simp [readBytes] at h
  | succ n ih =>
    cases k with
    | zero => rfl
    | succ k =>
      simp only [readBytes, List.getElem_cons_succ]
      rw [ih]
      congr 1
      omega

end Memory

@[simp] theorem length_damagedBytes (k a n : Nat) : (damagedBytes k a n).length = n := by
  induction n generalizing a with
  | zero => rfl
  | succ n ih => simp [damagedBytes, ih]

/-- A finished step keeps the canonical form. -/
theorem OpRecord.wf_finished (r : OpRecord) {m : Memory} (h : m.wf = true) : Memory.wf (r.finished m).1 = true := by
  unfold OpRecord.finished
  split
  · exact Memory.wf_erase _ _ h
  · exact Memory.wf_program _ _ h

/-- A step that stopped short keeps the canonical form. -/
theorem OpRecord.wf_damaged (r : OpRecord) {m : Memory} (k : Nat) (h : m.wf = true) : Memory.wf (r.damaged m k) = true := by
  unfold OpRecord.damaged
  split <;> exact Memory.wf_writeBytes _ _ h

/-- The store after reset is in canonical form. -/
theorem State.wf_reset : Memory.wf State.reset.mem = true := rfl

end Sys2Proof.Machine
end

