-- ==== Sys2Proof/Laws/Moves.lean ====
section
/-! SUPPORT. What the voices, the allocator and the lanes can do to the state, said once: a series of the updates below.
Each operation of theirs is such a series, and a law that the updates keep is kept by every operation. -/

namespace Sys2Proof.Machine

/-- The body is that of a FREE voice. -/
def VoiceBody.isFree (b : VoiceBody) : Bool := Voice.isFree ⟨0, b⟩

theorem Voice.isFree_eq (x : Voice) : x.isFree = x.body.isFree := by
  cases x
  rfl

/-- A series of updates that voices, allocator and lanes make. -/
inductive Moves : State → State → Prop
  | refl (s) : Moves s s
  | trans {s t u} : Moves s t → Moves t u → Moves s u
  | lane (s : State) (l x) : Moves s (s.setLane l x)
  | post (s : State) (k n g r x) : Moves s (s.post k n g r x)
  | raise (s : State) (t) : Moves s (s.raise t)
  | signal (s : State) (h) : Moves s (s.signal h)
  | offer (s : State) : Moves s s.offer
  | clearOffer (s : State) : Moves s s.clearOffer
  | retry (s : State) (r) : Moves s (s.setRetry r)
  | opening (s : State) : Moves s s.opening.2
  | claim (s : State) (f c) : Moves s (s.changeClaim f c)
  | contribution (s : State) (v c) : Moves s (s.setContribution v c)
  | body (s : State) (v b) : (s.voice v).isFree = false → b.isFree = false → Moves s (s.setBody v b)
  | free (s : State) (v) : Moves s (s.freeVoice v)
  | bind (s : State) (v x) : (s.voice v).isFree = true → Voice.isFree x = false →
      Moves s ((s.setVoice v x).setAge (s.alc.age ++ [v]))
  | attach (s : State) (v x) : (s.voice v).isFree = false → Voice.isFree x = false →
      Moves s ((s.setVoice v x).setAge (s.alc.age.erase v ++ [v]))

namespace Moves

/-! ### What the updates keep -/

/-- What no update touches. -/
structure Untouched (s t : State) : Prop where
  mem : t.mem = s.mem
  op : t.op = s.op
  coldWait : t.coldWait = s.coldWait
  cues : t.cues = s.cues
  trg : t.trg = s.trg
  out : t.out = { s.out with contributions := t.out.contributions }
  progress : t.progress = s.progress
  lnk : t.lnk = s.lnk
  autostart : t.autostart = s.autostart
  loadDue : t.loadDue = s.loadDue
  autostartDue : t.autostartDue = s.autostartDue
  nrst : t.nrst = s.nrst
  power : t.power = s.power
  damage : t.damage = s.damage
  pending : t.pending = s.pending
  records : ∀ c, (t.clip c).record = (s.clip c).record
  sectors : ∀ i, t.sectors.get i = { s.sectors.get i with useCount := (t.sectors.get i).useCount }

theorem untouched {s t : State} (h : Moves s t) : Untouched s t := by
  induction h with
  | refl s => constructor <;> first | rfl | intros; rfl
  | trans _ _ h₁ h₂ =>
    constructor
    · rw [h₂.mem, h₁.mem]
    · rw [h₂.op, h₁.op]
    · rw [h₂.coldWait, h₁.coldWait]
    · rw [h₂.cues, h₁.cues]
    · rw [h₂.trg, h₁.trg]
    · rw [h₂.out, h₁.out]
    · rw [h₂.progress, h₁.progress]
    · rw [h₂.lnk, h₁.lnk]
    · rw [h₂.autostart, h₁.autostart]
    · rw [h₂.loadDue, h₁.loadDue]
    · rw [h₂.autostartDue, h₁.autostartDue]
    · rw [h₂.nrst, h₁.nrst]
    · rw [h₂.power, h₁.power]
    · rw [h₂.damage, h₁.damage]
    · rw [h₂.pending, h₁.pending]
    · intro c; rw [h₂.records, h₁.records]
    · intro i; rw [h₂.sectors, h₁.sectors]
  | post s k n g r x => constructor <;> simp
  | claim s f c =>
    constructor <;> try simp
    · intro c'
      split
      · next h => subst h; rfl
      · rfl
    · intro i
      rw [State.get_sectors_changeClaim]
      split
      · rfl
      · split <;> rfl
  | _ => constructor <;> first | rfl | intros; rfl

/-- The bounds of EVQ are kept. -/
theorem bounded_raise {s : State} (t : Tally) (h : s.evq.bounded) : (s.raise t).evq.bounded := by
  refine ⟨h.1, h.2.1, fun i => ?_⟩
  rw [State.evq_raise, Table.get_set]
  split
  · omega
  · exact h.2.2 i

theorem bounded_post {s : State} (k n g r x) (h : s.evq.bounded) : (s.post k n g r x).evq.bounded := by
  unfold State.post
  split
  · next hl =>
    refine ⟨?_, by simp [State.accept], h.2.2⟩
    simp only [State.accept, List.length_append, List.length_singleton, Config.queueRecords] at hl ⊢
    omega
  · have := bounded_raise .eventsLost h
    refine ⟨this.1, ?_, this.2.2⟩
    simp only [State.dropRecord, Config.lostMax]
    omega

theorem bounded {s t : State} (h : Moves s t) : s.evq.bounded → t.evq.bounded := by
  induction h with
  | refl s => exact id
  | trans _ _ h₁ h₂ => exact fun h => h₂ (h₁ h)
  | post s k n g r x => exact bounded_post k n g r x
  | raise s t => exact bounded_raise t
  | claim s f c => rw [State.evq_changeClaim]; exact id
  | _ => exact id

/-! ### The age list -/

theorem isFree_setVoice (s : State) (v w : Fin 16) (x : Voice) :
    ((s.setVoice v x).voice w).isFree = if v = w then x.isFree else (s.voice w).isFree := by
  rw [State.voice_setVoice]
  split <;> rfl

theorem ageLaw_of_eq {s t : State} (ha : t.alc.age = s.alc.age) (hv : ∀ w, (t.voice w).isFree = (s.voice w).isFree) :
    s.ageLaw → t.ageLaw := by
  intro h
  refine ⟨by rw [ha]; exact h.1, fun v => ?_⟩
  rw [ha, hv]
  exact h.2 v

theorem ageLaw {s t : State} (h : Moves s t) : s.ageLaw → t.ageLaw := by
  induction h with
  | refl s => exact id
  | trans _ _ h₁ h₂ => exact fun h => h₂ (h₁ h)
  | body s v b hf hb =>
    refine ageLaw_of_eq rfl fun w => ?_
    rw [State.voice_setBody]
    split
    · next e => subst e; rw [hf, Voice.isFree_eq]; exact hb
    · rfl
  | free s v =>
    intro h
    have ha : (s.freeVoice v).alc.age = s.alc.age.erase v := rfl
    have hv : ∀ w, ((s.freeVoice v).voice w).isFree = if v = w then true else (s.voice w).isFree := by
      intro w
      have : (s.freeVoice v).voice w = ((s.setAge (s.alc.age.erase v)).setBody v .free).voice w := rfl
      rw [this, State.voice_setBody]
      split <;> rfl
    refine ⟨by rw [ha]; exact h.1.erase v, fun w => ?_⟩
    rw [ha, hv, h.1.mem_erase_iff, h.2]
    split
    · next e => subst e; simp
    · next e => simp [Ne.symm e]
  | bind s v x hf hx =>
    intro h
    have hn : v ∉ s.alc.age := fun hm => by simp [(h.2 v).1 hm] at hf
    have ha : ((s.setVoice v x).setAge (s.alc.age ++ [v])).alc.age = s.alc.age ++ [v] := rfl
    have hv : ∀ w, (((s.setVoice v x).setAge (s.alc.age ++ [v])).voice w).isFree
        = if v = w then x.isFree else (s.voice w).isFree := fun w => isFree_setVoice s v w x
    refine ⟨?_, fun w => ?_⟩
    · rw [ha]
      exact List.nodup_append.2 ⟨h.1, by simp, fun a ha b hb => by
        simp only [List.mem_singleton] at hb; intro e; exact hn (hb ▸ e ▸ ha)⟩
    · rw [ha, hv, List.mem_append, List.mem_singleton, h.2]
      split
      · next e => subst e; simp [hx]
      · next e => simp [Ne.symm e]
  | attach s v x hf hx =>
    intro h
    have ha : ((s.setVoice v x).setAge (s.alc.age.erase v ++ [v])).alc.age = s.alc.age.erase v ++ [v] := rfl
    have hv : ∀ w, (((s.setVoice v x).setAge (s.alc.age.erase v ++ [v])).voice w).isFree
        = if v = w then x.isFree else (s.voice w).isFree := fun w => isFree_setVoice s v w x
    refine ⟨?_, fun w => ?_⟩
    · rw [ha]
      exact List.nodup_append.2 ⟨h.1.erase v, by simp, fun a ha b hb => by
        simp only [List.mem_singleton] at hb
        rw [h.1.mem_erase_iff] at ha
        intro e
        exact ha.1 (e.trans hb)⟩
    · rw [ha, hv, List.mem_append, List.mem_singleton, h.1.mem_erase_iff, h.2]
      split
      · next e => subst e; simp [hx]
      · next e => simp [Ne.symm e]
  | post s k n g r x => exact ageLaw_of_eq (by simp) (by simp)
  | claim s f c => exact ageLaw_of_eq (by simp) (by simp)
  | _ => exact ageLaw_of_eq rfl fun _ => rfl

/-! ### Series over lists -/

theorem foldl {α : Type} (f : State → α → State) (hf : ∀ s x, Moves s (f s x)) (l : List α) (s : State) :
    Moves s (l.foldl f s) := by
  induction l generalizing s with
  | nil => exact refl s
  | cons x xs ih => exact (hf s x).trans (ih (f s x))

theorem foldlPair {α β : Type} (f : β × State → α → β × State) (hf : ∀ p x, Moves p.2 (f p x).2) (l : List α)
    (p : β × State) : Moves p.2 (l.foldl f p).2 := by
  induction l generalizing p with
  | nil => exact refl _
  | cons x xs ih => exact (hf p x).trans (ih (f p x))

/-! ### How a start ends -/

theorem ifPost (s : State) (b : Prop) [Decidable b] (k n g r x) :
    Moves s (if b then s.post k n g r x else s) := by
  split
  · exact post ..
  · exact refl s

theorem ifSignal (s : State) (b : Prop) [Decidable b] (h) : Moves s (if b then s.signal h else s) := by
  split
  · exact signal ..
  · exact refl s

theorem endStart (s : State) (v x g r) : Moves s (s.endStart v x g r) :=
  ((ifPost s _ ..).trans (claim ..)).trans (ifSignal ..)

@[simp] theorem voice_endStart (s : State) (v x g r) (w : Fin 16) : (s.endStart v x g r).voice w = s.voice w := by
  unfold State.endStart State.releaseClaim
  dsimp only
  split <;> split <;> simp

theorem endFree (s : State) (v x r) : Moves s (s.endFree v x r) := (endStart ..).trans (free ..)

theorem stopStart (s : State) (v r) : Moves s (s.stopStart v r) := by
  unfold State.stopStart
  dsimp only
  cases h : (s.voice v).body with
  | free => exact refl s
  | cutting => exact refl s
  | held y => exact endFree ..
  | playing y => exact body _ _ _ (by rw [Voice.isFree_eq, h]; rfl) rfl
  | releasing y => exact body _ _ _ (by rw [Voice.isFree_eq, h]; rfl) rfl

theorem cancelSuccessor (s : State) (v r) : Moves s (s.cancelSuccessor v r) := by
  unfold State.cancelSuccessor
  split
  · next y c z h =>
    refine (((((ifPost s _ ..).trans (claim ..)).trans (body _ _ _ ?_ rfl)).trans (signal ..)).trans (offer _))
    have : ∀ u : State, (u.voice v).body = .cutting y c (some z) → (u.voice v).isFree = false := by
      intro u hu
      rw [Voice.isFree_eq, hu]
      rfl
    apply this
    split <;> simpa using h
  · exact refl s

theorem completeCut (s : State) (v y c z) (h : (s.voice v).isFree = false) : Moves s (s.completeCut v y c z) := by
  unfold State.completeCut
  dsimp only
  refine (endStart s v y c.generation c.reason.endReason).trans ?_
  split
  · exact free ..
  · split
    · exact free ..
    · exact body _ _ _ (by rw [voice_endStart]; exact h) rfl

/-! ### The frame work of a voice -/

theorem voice_setContribution (s : State) (v w : Fin 16) (c) : (s.setContribution v c).voice w = s.voice w := rfl

theorem rampArrives (s : State) (v x r n) : Moves s (s.rampArrives v x r n) := ifPost s _ ..

@[simp] theorem voice_rampArrives (s : State) (v x r n) (w : Fin 16) : (s.rampArrives v x r n).voice w = s.voice w := by
  unfold State.rampArrives
  split <;> simp

theorem advanceRamp (s : State) (v x) (b : Sounding → VoiceBody) (r) (h : (s.voice v).isFree = false)
    (hb : ∀ y, (b y).isFree = false) : Moves s (s.advanceRamp v x b r) := by
  unfold State.advanceRamp
  split
  · exact body _ _ _ h (hb _)
  · split
    · exact body _ _ _ h (hb _)
    · dsimp only
      next q _ _ n _ =>
      refine ((rampArrives s v x q n).trans (body _ v (b { x with level := n, ramp := none })
        (by rw [voice_rampArrives]; exact h) (hb _))).trans ?_
      split
      · exact endFree ..
      · exact refl _

theorem soundingFrame (s : State) (v x) (b : Sounding → VoiceBody) (r) (h : (s.voice v).isFree = false)
    (hb : ∀ y, (b y).isFree = false) : Moves s (s.soundingFrame v x b r) := by
  unfold State.soundingFrame
  split
  · exact contribution ..
  · next q _ =>
    dsimp only
    refine (contribution s v (soundingContribution s.mem q x)).trans ?_
    split
    · exact endFree ..
    · exact advanceRamp _ _ _ _ _ h hb

theorem cutFrame (s : State) (v x c z) (h : (s.voice v).isFree = false) : Moves s (s.cutFrame v x c z) := by
  unfold State.cutFrame
  split
  · exact contribution ..
  · next q _ =>
    dsimp only
    refine (contribution s v (cutScaled (soundingContribution s.mem q x).1 c.framesLeft,
      cutScaled (soundingContribution s.mem q x).2 c.framesLeft)).trans ?_
    split
    · exact completeCut _ _ _ _ _ h
    · split
      · exact completeCut _ _ _ _ _ h
      · exact body _ _ _ h rfl

/-- The frame work of a voice is such a series (R2, R3, R11). -/
theorem voiceFrame (s : State) (v) : Moves s (s.voiceFrame v) := by
  unfold State.voiceFrame
  cases h : (s.voice v).body with
  | free => exact contribution ..
  | held => exact contribution ..
  | playing x => exact soundingFrame _ _ _ _ _ (by rw [Voice.isFree_eq, h]; rfl) fun _ => rfl
  | releasing x => exact soundingFrame _ _ _ _ _ (by rw [Voice.isFree_eq, h]; rfl) fun _ => rfl
  | cutting x c z => exact cutFrame _ _ _ _ _ (by rw [Voice.isFree_eq, h]; rfl)

/-! ### The operations on a handle -/

theorem nonFree {s : State} {v : Fin 16} {b : VoiceBody} (h : (s.voice v).body = b) (hb : b.isFree = false) :
    (s.voice v).isFree = false := by
  rw [Voice.isFree_eq, h, hb]

/-- RAMP (R15). -/
theorem opRamp (s : State) (h r) : Moves s (s.opRamp h r).2 := by
  unfold State.opRamp
  split
  · exact refl s
  · exact refl s
  · exact refl s
  · split
    · next x e => exact body _ _ _ (nonFree e rfl) rfl
    · next x e => exact body _ _ _ (nonFree e rfl) rfl
    · exact refl s

/-- RELEASE (R16). -/
theorem opRelease (s : State) (h) : Moves s (s.opRelease h).2 := by
  unfold State.opRelease
  split
  · exact refl s
  · exact refl s
  · exact cancelSuccessor ..
  · split
    · next x e => split <;> exact body _ _ _ (nonFree e rfl) rfl
    · next x e => split <;> exact body _ _ _ (nonFree e rfl) rfl
    · exact refl s

/-- STOP (R17). -/
theorem opStop (s : State) (h) : Moves s (s.opStop h).2 := by
  unfold State.opStop
  split
  · exact refl s
  · exact refl s
  · exact cancelSuccessor ..
  · exact stopStart ..

/-- HOLD (R18). -/
theorem opHold (s : State) (h) : Moves s (s.opHold h).2 := by
  unfold State.opHold
  split
  · exact refl s
  · exact refl s
  · exact refl s
  · split
    · next x e => exact body _ _ _ (nonFree e rfl) rfl
    · next x e => exact body _ _ _ (nonFree e rfl) rfl
    · exact refl s

/-- CONTINUE (R18). -/
theorem opContinue (s : State) (h) : Moves s (s.opContinue h).2 := by
  unfold State.opContinue
  split
  · exact refl s
  · exact refl s
  · exact refl s
  · split
    · next x e => exact body _ _ _ (nonFree e rfl) rfl
    · next x e => exact body _ _ _ (nonFree e rfl) rfl
    · exact refl s

/-! ### The allocator -/

theorem groupAt (g) (s : State) (v) : Moves s (State.groupAt g s v) := by
  unfold State.groupAt
  split
  · split
    · exact stopStart ..
    · exact refl s
  · split
    · exact stopStart ..
    · exact refl s
  · split
    · exact stopStart ..
    · exact refl s
  · split
    · exact cancelSuccessor ..
    · exact refl s
  · exact refl s
  · exact refl s

/-- The group rule (R43). -/
theorem groupRule (s : State) (g) : Moves s (s.groupRule g) := by
  unfold State.groupRule
  split
  · exact refl s
  · exact foldl _ (fun s v => groupAt g s v) _ _

/-- Binding to a FREE voice (R48). -/
theorem bindStart (s : State) (v o w r) (h : (s.voice v).isFree = true) : Moves s (s.bindStart v o w r).2 := by
  unfold State.bindStart State.takeClaim
  dsimp only
  exact (claim s (· + 1) o.clip).trans
    (bind (s.changeClaim (· + 1) o.clip) v _ (by rw [State.voice_changeClaim]; exact h) rfl)

theorem isFree_of_takesSuccessor {x : Voice} (h : x.takesSuccessor = true) : x.isFree = false := by
  unfold Voice.takesSuccessor at h
  unfold Voice.isFree
  split at h
  · next e => rw [e]
  · cases h

theorem isFree_withSuccessor {x : Voice} (o w) (h : x.isFree = false) : (x.withSuccessor o w).isFree = false := by
  unfold Voice.withSuccessor
  split
  · rfl
  · exact h

/-- Attaching a successor (R49). -/
theorem attachSuccessor (s : State) (v o w) (h : (s.voice v).isFree = false) : Moves s (s.attachSuccessor v o w).2 := by
  unfold State.attachSuccessor State.takeClaim
  dsimp only
  have key : ∀ u : State, (u.voice v).isFree = false →
      Moves u (((u.changeClaim (· + 1) o.clip).setVoice v ((s.voice v).withSuccessor o w)).setAge
        (u.alc.age.erase v ++ [v])) := by
    intro u hu
    have := (claim u (· + 1) o.clip).trans (attach (u.changeClaim (· + 1) o.clip) v ((s.voice v).withSuccessor o w)
      (by rw [State.voice_changeClaim]; exact hu) (isFree_withSuccessor o w h))
    simpa using this
  have hs : (if (s.voice v).cutIsLive = true then s.signal ⟨v, (s.voice v).generation⟩ else s).voice v = s.voice v := by
    split <;> rfl
  refine (ifSignal s ((s.voice v).cutIsLive = true) ⟨v, (s.voice v).generation⟩).trans ?_
  have := key _ (by rw [hs]; exact h)
  simpa using this

theorem voice_raise (s : State) (t w) : (s.raise t).voice w = s.voice w := rfl

/-- A steal (R46): the victim is not FREE. -/
theorem steal (s : State) (v o w r) : Moves s (s.steal v o w r).2 := by
  unfold State.steal
  dsimp only
  refine ((raise s .steals).trans (stopStart _ v .stolen)).trans ?_
  split
  · next h => exact bindStart _ _ _ _ _ h
  · next h => exact attachSuccessor _ _ _ _ (by simpa using h)

/-- Voice choice and binding (R44 to R49). -/
theorem chooseVoice (s : State) (o w r) : Moves s (s.chooseVoice o w r).2 := by
  unfold State.chooseVoice
  split
  · next v h => exact bindStart _ _ _ _ _ (by simpa using List.find?_some h)
  · split
    · next v h => exact attachSuccessor _ _ _ _ (isFree_of_takesSuccessor (by simpa using List.find?_some h))
    · split
      · exact steal ..
      · exact refl s

/-- A start order taken whole (R41). -/
theorem tryOrder (s : State) (o w) : Moves s (s.tryOrder o w).2 := by
  unfold State.tryOrder
  split
  · exact refl s
  · exact (groupRule ..).trans (chooseVoice ..)

/-- A start order that is no retry (R41, R47). -/
theorem takeOrder (s : State) (o w) : Moves s (s.takeOrder o w).2 := by
  have h := tryOrder s o w
  unfold State.takeOrder
  split
  · next e => rw [e] at h; exact h.trans (raise ..)
  · exact h

/-! ### The lanes -/

theorem postLaneIdle (s : State) (l r k f) : Moves s (s.postLaneIdle l r k f) := post ..

theorem faultLane (s : State) (l k f) : Moves s (s.faultLane l k f) := (lane ..).trans (post ..)

theorem oweNotice (s : State) (l r k q) : Moves s (s.oweNotice l r k q) := by
  unfold State.oweNotice
  split
  · exact post ..
  · exact lane ..

/-- A held notice posted (R91, R92). -/
theorem postNotice (s : State) (l) : Moves s (s.postNotice l) := by
  unfold State.postNotice
  split
  · exact refl s
  · exact (postLaneIdle ..).trans (lane ..)

theorem prepareStart (s : State) (l c o) : Moves s (s.prepareStart l c o) := lane ..

theorem playFailed (s : State) (l k p st) : Moves s (s.playFailed l k p st).2 := by
  unfold State.playFailed
  dsimp only
  refine (lane s l ((s.lane l).setHandle p.h none)).trans ?_
  split
  · exact post ..
  · split
    · exact (lane ..).trans (retry ..)
    · exact post ..
  · exact faultLane ..

theorem takePlay (s : State) (l k p) : Moves s (s.takePlay l k p).2 := by
  have h := takeOrder s p.order (.lane l)
  unfold State.takePlay
  split
  · next e => rw [e] at h; exact h.trans (lane ..)
  · next e => rw [e] at h; exact h.trans (lane ..)
  · next e => rw [e] at h; exact h.trans (playFailed ..)
  · next e => rw [e] at h; exact h

theorem onHandle (s : State) (l h) (f : State → Handle → Status × State) (hf : ∀ s x, Moves s (f s x).2) :
    Moves s (s.onHandle l h f) := by
  unfold State.onHandle
  split
  · exact refl s
  · exact hf ..

/-- A block's op taken (R79). -/
theorem takeOp (s : State) (l k b) : Moves s (s.takeOp l k b).2 := by
  unfold State.takeOp
  split
  · exact takePlay ..
  · exact onHandle _ _ _ _ fun s x => opRamp s x _
  · exact onHandle _ _ _ _ fun s x => opRelease s x
  · exact onHandle _ _ _ _ fun s x => opStop s x
  · exact lane ..
  · unfold State.takeWaitVoice
    split
    · exact refl s
    · split
      · exact refl s
      · exact lane ..
  · exact lane ..
  · unfold State.takeRepeat
    dsimp only
    split
    · exact lane ..
    · split
      · exact faultLane ..
      · split <;> exact lane ..
  · exact post ..

/-- A fetch (R78). -/
theorem fetch (s : State) (l k) : Moves s (s.fetch l k) := by
  unfold State.fetch
  split <;> exact lane ..

/-- The start procedure (R76). -/
theorem beginRun (s : State) (l k c o) : Moves s (s.beginRun l k c o) := (prepareStart ..).trans (fetch ..)

theorem pauseLane (s : State) (l k q) : Moves s (s.pauseLane l k q) := (lane ..).trans (oweNotice ..)

theorem endRun (s : State) (l k q) : Moves s (s.endRun l k q) := by
  unfold State.endRun
  dsimp only
  refine ((lane s l (s.lane l).idled).trans (oweNotice _ l .runEnd k q)).trans ?_
  split
  · exact refl _
  · exact beginRun ..

/-- The completion of a block (R80). -/
theorem finishBlock (s : State) (l k b n) : Moves s (s.finishBlock l k b n) := by
  unfold State.finishBlock
  dsimp only
  have h : Moves s (if b.note = true then s.postCueDone l k else s) := by
    split
    · exact post ..
    · exact refl s
  refine h.trans ?_
  generalize (if b.note = true then s.postCueDone l k else s) = u
  split
  · exact fetch ..
  · split
    · exact pauseLane ..
    · split
      · exact endRun ..
      · exact fetch ..

theorem completeAtOnce (s : State) (l k b n) : Moves s (s.completeAtOnce l k b n) := by
  unfold State.completeAtOnce
  dsimp only
  refine (lane s l { s.lane l with budget := (s.lane l).budget + 1 }).trans ?_
  split
  · exact faultLane ..
  · exact finishBlock ..

/-- A block taken and, where it completes at once, completed (R79, R80). -/
theorem takeBlock (s : State) (l k b) : Moves s (s.takeBlock l k b) := by
  have h := takeOp s l k b
  unfold State.takeBlock
  split
  · next e => rw [e] at h; exact h.trans (completeAtOnce ..)
  · next e => rw [e] at h; exact h

theorem takeNext (s : State) (l) : Moves s (s.takeNext l) := by
  unfold State.takeNext
  split
  · exact refl s
  · exact takeBlock ..

theorem runOn (fuel) (s : State) (l) : Moves s (State.runOn fuel s l) := by
  induction fuel generalizing s with
  | zero => exact refl s
  | succ fuel ih =>
    unfold State.runOn
    split
    · exact refl s
    · split
      · exact opening s
      · exact ((opening s).trans (takeNext ..)).trans (ih _)

theorem settle (fuel) (s : State) (l) : Moves s (State.settle fuel s l) := by
  induction fuel generalizing s with
  | zero => exact refl s
  | succ fuel ih =>
    unfold State.settle
    split
    · exact refl s
    · exact (takeNext ..).trans (ih _)

/-- A lane's run from a fetched block on (R79). -/
theorem runLane (s : State) (l) : Moves s (s.runLane l) := (takeNext ..).trans (runOn ..)

/-- A start of a lane (R76). -/
theorem startLane (s : State) (l k c o) : Moves s (s.startLane l k c o) := (beginRun ..).trans (runLane ..)

theorem endWait (s : State) (l) : Moves s (s.endWait l) := by
  unfold State.endWait
  split
  · exact refl s
  · exact (lane ..).trans (finishBlock ..)

/-- The end of a wait (R82). -/
theorem wakeLane (s : State) (l) : Moves s (s.wakeLane l) := (endWait ..).trans (runOn ..)

/-- The lanes that one event wakes (R83). -/
theorem wakeInTurn (s : State) (ls) : Moves s (s.wakeInTurn ls) := by
  induction ls generalizing s with
  | nil => exact refl s
  | cons l rest ih =>
    cases rest with
    | nil => exact wakeLane ..
    | cons => exact ((endWait ..).trans (settle ..)).trans (ih _)

/-- A lane's tick (R83, R91). -/
theorem tickLane (s : State) (l) : Moves s (s.tickLane l) := by
  unfold State.tickLane
  dsimp only
  split
  · split
    · exact endWait ..
    · exact lane ..
  · split
    · exact refl s
    · split
      · exact postNotice ..
      · exact lane ..

/-- The lanes that a tick changes (R83, R91). -/
theorem tickInTurn (s : State) (ls) : Moves s (s.tickInTurn ls) := by
  induction ls generalizing s with
  | nil => exact refl s
  | cons l rest ih =>
    cases rest with
    | nil =>
      unfold State.tickInTurn
      split
      · exact (tickLane ..).trans (runOn ..)
      · exact tickLane ..
    | cons =>
      unfold State.tickInTurn
      refine Moves.trans ?_ (ih _)
      split
      · exact (tickLane ..).trans (settle ..)
      · exact tickLane ..

/-- A code reported to LNC (R83, R105). -/
theorem reportCode (s : State) (c) : Moves s (s.reportCode c).2 := wakeInTurn ..

/-- A signal taken by LNC (R84). -/
theorem takeSignal (s : State) (h) : Moves s (s.takeSignal h) := wakeInTurn ..

theorem retrySucceeded (s : State) (l h) : Moves s (s.retrySucceeded l h) := by
  unfold State.retrySucceeded
  dsimp only
  split
  · exact wakeLane ..
  · exact (lane ..).trans (wakeLane ..)

/-- The answer of a retry (R54, R85). -/
theorem answerRetry (s : State) (r) : Moves s (s.answerRetry r) := by
  have h := (retry s none).trans (tryOrder (s.setRetry none) r.order (.lane r.lane))
  unfold State.answerRetry
  split
  · next e =>
    rw [e] at h
    split
    · exact h.trans (retrySucceeded ..)
    · exact h
  · next e =>
    rw [e] at h
    split
    · exact h.trans (retrySucceeded ..)
    · exact h
  · next e => rw [e] at h; exact h
  · next e => rw [e] at h; exact h

/-- A lane's turn in a retry round (R53, R85). -/
theorem retryAt (s : State) (l) : Moves s (s.retryAt l) := by
  unfold State.retryAt
  split
  · exact refl s
  · unfold State.askRetry
    split
    · exact (opening s).trans (retry ..)
    · exact (opening s).trans (answerRetry ..)

theorem retryFrom (s : State) (n) : Moves s (s.retryFrom n) := by
  unfold State.retryFrom
  refine foldl _ (fun s l => ?_) _ _
  split
  · exact retryAt ..
  · exact refl s

/-- A retry round (R53). -/
theorem retryRound (s : State) : Moves s s.retryRound := by
  unfold State.retryRound
  split
  · exact (answerRetry ..).trans (retryFrom ..)
  · split
    · exact (clearOffer s).trans (retryFrom ..)
    · exact refl s

/-- A step with no command waiting (log 6). -/
theorem goOn (s : State) : Moves s s.goOn := by
  unfold State.goOn
  split
  · exact retryRound s
  · split
    · exact refl s
    · exact runLane ..

/-- LANE PAUSE (R86). -/
theorem pauseRequest (s : State) (l) : Moves s (s.pauseRequest l).2 := by
  unfold State.pauseRequest
  dsimp only
  split
  · exact lane ..
  · exact lane ..
  · split
    · refine (lane s l { s.lane l with pauseRequested := true }).trans ?_
      unfold State.giveUpStart
      split
      · exact refl _
      · exact (post ..).trans (wakeLane ..)
    · exact lane ..
  · exact refl s
  · exact refl s
  · exact refl s

/-- LANE RESUME (R87). -/
theorem resumeLane (s : State) (l) : Moves s (s.resumeLane l).2 := by
  unfold State.resumeLane
  split
  · dsimp only
    refine (lane s l { s.lane l with notice := none, budget := 0 }).trans ?_
    split
    · exact refl _
    · refine Moves.trans ?_ (runLane ..)
      split
      · exact endRun ..
      · exact fetch ..
  · exact refl s

/-- STOP on each handle slot (R89 step 3). -/
theorem cutHandles (s : State) (l) : Moves s (s.cutHandles l) :=
  foldl (fun s h => s.onHandle l h fun s x => s.opStop x) (fun s h => onHandle s l h _ opStop) _ _

/-- An abort (R89). -/
theorem abortLane (s : State) (l c p) : Moves s (s.abortLane l c p) := by
  unfold State.abortLane
  dsimp only
  have h : ∀ u : State, Moves u (if c = true then u.cutHandles l else u) := by
    intro u
    split
    · exact cutHandles u l
    · exact refl u
  refine ((lane s l { (s.lane l).idled with notice := none }).trans (h _)).trans ?_
  generalize (if c = true then _ else _ : State) = u
  split
  · exact post ..
  · exact refl _

/-- A binding start (R93). -/
theorem bindingStart (s : State) (i b) : Moves s (s.bindingStart i b).2 := by
  unfold State.bindingStart
  dsimp only
  split
  · exact startLane ..
  · split
    · exact refl s
    · exact (abortLane ..).trans (startLane ..)
    · split
      · exact refl s
      · exact lane ..

/-- The lanes that starve on a slot (R70). -/
theorem wakeStarved (s : State) (k) : Moves s (s.wakeStarved k) := by
  unfold State.wakeStarved
  refine foldl _ (fun s l => ?_) _ _
  split
  · exact (fetch ..).trans (runLane ..)
  · exact refl s

end Moves

end Sys2Proof.Machine
end

