-- ==== Sys2Proof/Laws/Orders.lean ====
section
/-! SUPPORT. What the voices and the allocator leave alone: the lanes, the retry that stands, and the free choices; and what a
start order comes to when it fails, and when a FREE voice takes it. -/

namespace Sys2Proof.Machine

/-- The lanes, the retry that stands and the openings are as they were. -/
structure Apart (s t : State) : Prop where
  lanes : t.lanes = s.lanes
  retry : t.alc.retry = s.alc.retry
  openings : t.openings = s.openings

namespace Apart

theorem refl (s : State) : Apart s s := ⟨rfl, rfl, rfl⟩

theorem trans {s t u : State} (h : Apart s t) (k : Apart t u) : Apart s u :=
  ⟨k.lanes.trans h.lanes, k.retry.trans h.retry, k.openings.trans h.openings⟩

theorem lane {s t : State} (h : Apart s t) (l : Fin 4) : t.lane l = s.lane l := by
  unfold State.lane
  rw [h.lanes]

theorem post (s : State) (k n g r x) : Apart s (s.post k n g r x) := ⟨by simp, by simp, by simp⟩

theorem raise (s : State) (t) : Apart s (s.raise t) := ⟨rfl, rfl, rfl⟩

theorem claim (s : State) (f c) : Apart s (s.changeClaim f c) := ⟨by simp, by simp, by simp⟩

theorem signal (s : State) (h) : Apart s (s.signal h) := ⟨rfl, rfl, rfl⟩

theorem body (s : State) (v b) : Apart s (s.setBody v b) := ⟨rfl, rfl, rfl⟩

theorem ifPost (s : State) (b : Prop) [Decidable b] (k n g r x) : Apart s (if b then s.post k n g r x else s) := by
  split
  · exact post ..
  · exact refl s

theorem ifSignal (s : State) (b : Prop) [Decidable b] (h) : Apart s (if b then s.signal h else s) := by
  split
  · exact signal ..
  · exact refl s

theorem free (s : State) (v) : Apart s (s.freeVoice v) := ⟨rfl, rfl, rfl⟩

theorem endStart (s : State) (v x g r) : Apart s (s.endStart v x g r) :=
  ((ifPost s _ ..).trans (claim ..)).trans (ifSignal ..)

theorem endFree (s : State) (v x r) : Apart s (s.endFree v x r) := (endStart ..).trans (free ..)

theorem stopStart (s : State) (v r) : Apart s (s.stopStart v r) := by
  unfold State.stopStart
  dsimp only
  split
  · exact body ..
  · exact body ..
  · exact endFree ..
  · exact refl s
  · exact refl s

theorem cancelSuccessor (s : State) (v r) : Apart s (s.cancelSuccessor v r) := by
  unfold State.cancelSuccessor
  split
  · exact ((ifPost s _ ..).trans (claim ..)).trans ⟨rfl, rfl, rfl⟩
  · exact refl s

/-- RAMP (R15). -/
theorem opRamp (s : State) (h r) : Apart s (s.opRamp h r).2 := by
  unfold State.opRamp
  split
  · exact refl s
  · exact refl s
  · exact refl s
  · split
    · exact body ..
    · exact body ..
    · exact refl s

/-- RELEASE (R16). -/
theorem opRelease (s : State) (h) : Apart s (s.opRelease h).2 := by
  unfold State.opRelease
  split
  · exact refl s
  · exact refl s
  · exact cancelSuccessor ..
  · split
    · split <;> exact body ..
    · split <;> exact body ..
    · exact refl s

/-- STOP (R17). -/
theorem opStop (s : State) (h) : Apart s (s.opStop h).2 := by
  unfold State.opStop
  split
  · exact refl s
  · exact refl s
  · exact cancelSuccessor ..
  · exact stopStart ..

theorem groupAt (g) (s : State) (v) : Apart s (State.groupAt g s v) := by
  unfold State.groupAt
  repeat' split
  all_goals first | exact stopStart .. | exact cancelSuccessor .. | exact refl s

theorem groupRule (s : State) (g) : Apart s (s.groupRule g) := by
  unfold State.groupRule
  split
  · exact refl s
  · generalize allVoices = l
    induction l generalizing s with
    | nil => exact refl s
    | cons v l ih => exact (groupAt g s v).trans (ih _)

/-- Binding to a FREE voice (R48). -/
theorem bindStart (s : State) (v o w r) : Apart s (s.bindStart v o w r).2 :=
  (claim s (· + 1) o.clip).trans ⟨rfl, rfl, rfl⟩

/-- Attaching a successor (R49). -/
theorem attachSuccessor (s : State) (v o w) : Apart s (s.attachSuccessor v o w).2 :=
  ((ifSignal s ((s.voice v).cutIsLive = true) _).trans (claim _ (· + 1) o.clip)).trans ⟨rfl, rfl, rfl⟩

theorem steal (s : State) (v o w r) : Apart s (s.steal v o w r).2 := by
  unfold State.steal
  dsimp only
  refine ((raise s .steals).trans (stopStart _ v .stolen)).trans ?_
  split
  · exact bindStart ..
  · exact attachSuccessor ..

theorem chooseVoice (s : State) (o w r) : Apart s (s.chooseVoice o w r).2 := by
  unfold State.chooseVoice
  split
  · exact bindStart ..
  · split
    · exact attachSuccessor ..
    · split
      · exact steal ..
      · exact refl s

/-- A start order taken whole (R41). -/
theorem tryOrder (s : State) (o w) : Apart s (s.tryOrder o w).2 := by
  unfold State.tryOrder
  split
  · exact refl s
  · exact (groupRule ..).trans (chooseVoice ..)

/-- A start order that is no retry (R41, R47). -/
theorem takeOrder (s : State) (o w) : Apart s (s.takeOrder o w).2 := by
  have h := tryOrder s o w
  unfold State.takeOrder
  split
  · next e => rw [e] at h; exact h.trans (raise ..)
  · exact h

end Apart

/-! ### The checks of an order (R42) and the group rule (R43) -/

theorem State.touchedSector_iff (s : State) (r : ClipRecord) (p : Sector → Bool) :
    s.touchedSector r p = true ↔ ∃ i : Fin 128, r.touches i = true ∧ p (s.sectors.get i) = true := by
  unfold State.touchedSector
  rw [Table.anyIdx_iff]
  simp

theorem State.touchedSector_false (s : State) (r : ClipRecord) (p : Sector → Bool) :
    s.touchedSector r p = false ↔ ∀ i : Fin 128, r.touches i = true → p (s.sectors.get i) = false := by
  rw [← Bool.not_eq_true, State.touchedSector_iff]
  simp

/-- A DEFINED clip with no busy and no SUSPECT sector passes the checks of a lane's order. -/
theorem State.clipChecks_clear {s : State} {o : StartOrder} {r : ClipRecord} (l) (h : (s.clip o.clip).record = some r)
    (hc : s.sectorsClear r) : s.clipChecks o (.lane l) = .ok r := by
  unfold State.clipChecks
  rw [h]
  dsimp only
  rw [if_neg (by simp), if_neg (by rw [Bool.not_eq_true, State.touchedSector_false]; exact fun i hi => (hc i hi).1),
    if_neg (by rw [Bool.not_eq_true, State.touchedSector_false]; exact fun i hi => (hc i hi).2)]

theorem State.groupAt_alone {s : State} {o : StartOrder} (hg : ∀ x : Fin 16, (∀ y, (s.voice x).stands = some y → y.group ≠ o.group)
    ∧ ∀ y c z, (s.voice x).body = .cutting y c (some z) → z.order.group ≠ o.group) (v) : State.groupAt o.group s v = s := by
  unfold State.groupAt
  have h1 := (hg v).1
  have h2 := (hg v).2
  unfold Voice.stands at h1
  split
  · next e => rw [if_neg]; exact h1 _ (by rw [e])
  · next e => rw [if_neg]; exact h1 _ (by rw [e])
  · next e => rw [if_neg]; exact h1 _ (by rw [e])
  · next e => rw [if_neg]; exact h2 _ _ _ e
  · rfl
  · rfl

/-- With no start of its group an order cuts nothing. -/
theorem State.groupRule_alone {s : State} {o : StartOrder} (h : s.groupAlone o) : s.groupRule o.group = s := by
  unfold State.groupRule
  split
  · rfl
  · next hn =>
    rcases h with h | h
    · exact absurd h hn
    · generalize allVoices = l
      induction l with
      | nil => rfl
      | cons v l ih => rw [List.foldl_cons, State.groupAt_alone h]; exact ih

/-! ### What an order comes to (R41, R47, R48) -/

/-- An order that fails changes nothing. -/
theorem State.tryOrder_fails {s : State} {o : StartOrder} {st : Status} (h : s.orderFails o st) (l) :
    s.tryOrder o (.lane l) = (.failed st, s) := by
  unfold State.tryOrder
  cases st with
  | notDefined =>
    have h' : (s.clip o.clip).record = none := h
    unfold State.clipChecks
    rw [h']
  | clipBusy =>
    obtain ⟨r, hr, hb⟩ := h
    unfold State.clipChecks
    rw [hr]
    dsimp only
    rw [if_neg (by simp), if_pos (by rw [State.touchedSector_iff]; exact hb)]
  | suspect =>
    obtain ⟨r, hr, hb, hs⟩ := h
    unfold State.clipChecks
    rw [hr]
    dsimp only
    rw [if_neg (by simp), if_neg (by rw [Bool.not_eq_true, State.touchedSector_false]; exact hb), if_pos (by rw [State.touchedSector_iff]; exact hs)]
  | noVoice =>
    obtain ⟨⟨r, hr, hc⟩, hg, hv⟩ := h
    rw [State.clipChecks_clear l hr hc]
    dsimp only
    rw [State.groupRule_alone hg]
    have h1 : (allVoices.find? fun v => (s.voice v).isFree) = none := by
      rw [List.find?_eq_none]
      intro v _
      rcases hv v with ⟨y, c, z, e⟩ | ⟨y, e, _⟩
      · simp [Voice.isFree, e]
      · intro hf
        unfold Voice.isFree at hf
        unfold Voice.stands at e
        split at hf <;> simp_all
    have h2 : (allVoices.find? fun v => (s.voice v).takesSuccessor) = none := by
      rw [List.find?_eq_none]
      intro v _
      rcases hv v with ⟨y, c, z, e⟩ | ⟨y, e, _⟩
      · simp [Voice.takesSuccessor, e]
      · intro hf
        unfold Voice.takesSuccessor at hf
        unfold Voice.stands at e
        split at hf <;> simp_all
    have h3 : s.stealCandidates o.priority = [] := by
      unfold State.stealCandidates
      rw [List.filter_eq_nil_iff]
      intro v _
      rcases hv v with ⟨y, c, z, e⟩ | ⟨y, e, hp⟩
      · simp [Voice.stealPriority, e]
      · unfold Voice.stands at e
        unfold Voice.stealPriority
        split at e <;> simp_all
    have h4 : s.stealVictim o.priority = none := by
      unfold State.stealVictim
      rw [h3]
      rfl
    unfold State.chooseVoice
    rw [h1, h2, h4]
  | _ => exact h.elim

/-- A failed order that is no retry counts in START_FAILS and changes nothing else. -/
theorem State.takeOrder_fails {s : State} {o : StartOrder} {st : Status} (h : s.orderFails o st) (l) :
    s.takeOrder o (.lane l) = (.failed st, s.counted 9) := by
  unfold State.takeOrder
  rw [State.tryOrder_fails h l]
  rfl

/-- The lowest voice with a property. -/
theorem find_lowestVoice {p : Fin 16 → Bool} {v : Fin 16} (hv : p v = true) (hl : ∀ w, w < v → p w = false) :
    allVoices.find? p = some v := by
  rw [List.find?_eq_some_iff_append]
  refine ⟨hv, allVoices.take v.val, allVoices.drop (v.val + 1), ?_, fun w hw => ?_⟩
  · have whole : ∀ v : Fin 16, allVoices = allVoices.take v.val ++ v :: allVoices.drop (v.val + 1) := by decide
    exact whole v
  · have below : ∀ v : Fin 16, ∀ w ∈ allVoices.take v.val, w < v := by decide
    rw [hl w (below v w hw)]
    rfl

/-- The lowest FREE voice begins the start. -/
theorem State.tryOrder_binds {s : State} {o : StartOrder} {r : ClipRecord} {v : Fin 16} (h : (s.clip o.clip).record = some r)
    (hc : s.sectorsClear r) (hg : s.groupAlone o) (hv : (s.voice v).body = .free) (hw : ∀ w, w < v → (s.voice w).body ≠ .free) (l) :
    s.tryOrder o (.lane l) = s.bindStart v o (.lane l) r := by
  unfold State.tryOrder
  rw [State.clipChecks_clear l h hc]
  dsimp only
  rw [State.groupRule_alone hg]
  unfold State.chooseVoice
  rw [find_lowestVoice (v := v) (by simp [Voice.isFree, hv]) (by
    intro w hlt
    have := hw w hlt
    unfold Voice.isFree
    split <;> simp_all)]

theorem State.takeOrder_binds {s : State} {o : StartOrder} {r : ClipRecord} {v : Fin 16} (h : (s.clip o.clip).record = some r)
    (hc : s.sectorsClear r) (hg : s.groupAlone o) (hv : (s.voice v).body = .free) (hw : ∀ w, w < v → (s.voice w).body ≠ .free) (l) :
    s.takeOrder o (.lane l) = (.sounding ⟨v, (s.voice v).generation + 1⟩, (s.bindStart v o (.lane l) r).2) := by
  unfold State.takeOrder
  rw [State.tryOrder_binds h hc hg hv hw l]
  rfl

end Sys2Proof.Machine
end

