-- ==== Sys2Proof/Laws/Requests.lean ====
section
/-! SUPPORT. A host request by the state of the link (R161, R164 to R166). -/

namespace Sys2Proof.Machine

/-- A request taken: its owner acts with a reply owed, and the reply is sent (R164 to R166). -/
theorem State.request_taken {s : State} (h : s.takesRequests) (tag type : Byte) (f : State → Answer × State) :
    s.request tag type f = (f s.oweReply).2.sendReply tag type (f s.oweReply).1 := by
  unfold State.request State.takeRequest
  rw [if_neg h.1, if_neg (by rw [h.2]; decide)]

/-- A request whose bytes the receiver does not hear (R161). -/
theorem State.request_off {s : State} (h : s.lnk.rx = .off) (tag type : Byte) (f : State → Answer × State) :
    s.request tag type f = s := by
  unfold State.request
  rw [if_pos h]

/-- A request that comes while a reply is owed (R164). -/
theorem State.request_late {s : State} (h : s.lnk.rx ≠ .off) (ho : s.lnk.replyOwed = true) (tag type : Byte)
    (f : State → Answer × State) : s.request tag type f = s.raise .linkLate := by
  unfold State.request
  rw [if_neg h, if_pos ho]

theorem replyType_of_lt {type : Byte} (h : type.toNat < 0x80) : replyType type = type + 0x80 := if_pos h

/-- The link and the rest of the state as a reply leaves them, in the words of `State.replying`. -/
theorem State.sendReply_oweReply (s : State) (tag type : Byte) (a : Answer) :
    s.oweReply.sendReply tag type a = s.replying tag (replyType type) a.status a.data := rfl

/-- A tally raised, in the words of `State.counted`. -/
theorem State.raise_eq_counted (s : State) (t : Tally) : s.raise t = s.counted t.index := rfl

/-- A request that its owner answers with the state as it was (R166). -/
theorem State.request_unchanged {s : State} (h : s.takesRequests) (tag type : Byte) (f : State → Answer × State) (a : Answer)
    (hf : f s.oweReply = (a, s.oweReply)) :
    s.request tag type f = s.replying tag (replyType type) a.status a.data := by
  rw [State.request_taken h, hf]
  rfl

end Sys2Proof.Machine
end

