-- ==== Sys2Proof/Tests/Slice0.lean ====
section
/-! SUPPORT. Tests: ill-formed commands the check refuses, worked examples of the spec, and for each statement concrete
states and operands that meet its hypotheses, clause by clause. -/

namespace Sys2Proof.Tests

set_option Elab.async false

open Sys2Proof.Machine

/-! ### Small states -/

/-- The part after loading a blank setup area, as far as the tests need it. -/
def ready : State :=
  { State.reset with
    loadDue := false
    lnk := { Lnk.cold with rx := .hunting }
    trg := { Trg.cold with rx := .hunting } }

/-- A clip of 100 S8 samples in sector 2, and one of 3,000 S16 samples with a FORWARD loop in sector 5. -/
def clipA : ClipRecord :=
  { base := 8192, count := 100, format := .s8, loopMode := .none, loop := none, step := 4096, release := none }
def clipB : ClipRecord :=
  { base := 20480, count := 3000, format := .s16, loopMode := .forward, loop := some ⟨1, 2000⟩, step := 2000
    release := some ⟨4, .x8⟩ }

/-- `ready` with the two clips in places 3 and 4. -/
def clipped : State :=
  { ready with
    clips := (ready.clips.set 3 ⟨some clipA, 0⟩).set 4 ⟨some clipB, 0⟩
    mem := [(8192, 100), (8193, 50), (8194, 0x80), (20480, 1), (20481, 7)] }

/-- A start of clip 3 that sounds. -/
def sounding : Sounding :=
  { clip := 3, pos := 4096, direction := .forward, step := 4096, loopMode := .none, loops := 0, exit := false
    level := 4095, ramp := none, release := none, pan := 7, priority := 2, group := 0, noteEnd := true, owner := .link }

/-- A start order for clip 3 as VOICE PLAY carries it, and as the part reads it. -/
def orderWire : OrderWire :=
  { clip := 3, priority := 5, group := 0, step := 0, level := 4000, pan := 9, loopCount := 0, releaseRate := 0
    releaseScale := 9, flags := 2, rampTarget := 0, rampRate := 0, rampScale := 0, rampMode := 0, rampNotify := 0 }
def order : StartOrder :=
  { clip := 3, priority := 5, group := 0, step := 0, level := 4000, pan := 9, loopCount := 0, release := none
    reverse := false, noteEnd := true, ramp := none }

/-- A successor for clip 4 in group 2. -/
def successor : Successor := ⟨{ order with clip := 4, group := 2 }, 7, .lane 3⟩

/-- `clipped` with one voice, V5, in a state of generation 7. -/
def oneVoice (b : VoiceBody) : State :=
  { clipped with voices := clipped.voices.set 5 ⟨7, b⟩, alc := ⟨[5], false, none⟩ }

/-- `clipped` with every voice in one state of generation 7, V0 the oldest. -/
def allIn (b : VoiceBody) : State :=
  { clipped with voices := Table.const 16 ⟨7, b⟩, alc := ⟨allVoices, false, none⟩ }

/-- A cue block with link 9 and nothing else set. -/
def block (op : CueOp) : CueBlock := { op, last := false, pause := false, note := false, link := 9, quiet := 0 }

/-- A lane that waits at slot 8, and one that is PAUSED there. -/
def waitingLane (w : Wait) : Lane := { Lane.cold with state := .waiting, slot := some 8, origin := some .link, wait := some w }
def pausedLane : Lane := { Lane.cold with state := .paused, slot := some 8, origin := some .link, notice := some ⟨.pause, 1, 8⟩ }
def starvedLane : Lane := { Lane.cold with state := .starved, slot := some 8, origin := some .link }
def faultedLane : Lane := { Lane.cold with state := .faulted, slot := some 8, fault := some (.runaway, 8) }
def runningLane : Lane := { Lane.cold with state := .running, slot := some 8, origin := some .link }
def quietLane : Lane := { Lane.cold with notice := some ⟨.runEnd, 1, 8⟩, origin := some .link }

/-- A retry of `order` for L2 that stands between its question and its answer. -/
def asked (standing : Bool) (s : State) : State := { s with alc := { s.alc with retry := some ⟨2, order, standing⟩ } }

/-- A state with one lane context, L2, and a block at slot 8. -/
def oneLane (x : Lane) (b : CueBlock) (s : State) : State := (s.setLane 2 x).setCue 8 (some b)

/-- A page of bytes to program, erased but for its first two. -/
def page : List Byte := 0xF0 :: 0x5A :: List.replicate 254 0xFF

/-- A store operation in flight on a sector, in its first step. -/
def operating (op : StoreOp) (sector : Fin 128) (addr : Option Nat) (left : Nat) (step : Option Nat) : State :=
  { ready with
    op := some { op, sector, page := addr, limitLeft := left, commitStep := step, data := some page, image := none }
    sectors := ready.sectors.set sector ⟨false, 0, true, true⟩ }

/-- A state whose next frame is the 32nd. -/
def tickNext (s : State) : State := { s with out := { s.out with frameSub := 31 } }

/-- A trigger code, its two CRC bytes, and a state that has all of its frame but the last byte. -/
def code : Code := 0xCAFE0102
def crcHigh : Byte := (halfBytes (crc16 (codeBytes code))).getD 0 0
def crcLow : Byte := (halfBytes (crc16 (codeBytes code))).getD 1 0
def receiving (s : State) : State :=
  { s with trg := { s.trg with rx := .collecting, bytes := codeBytes code ++ [crcHigh], gap := 3 } }

/-- What both receivers note of a byte in reception. -/
def inReception (r : Reception) (s : State) : State :=
  { s with lnk := { s.lnk with reception := r }, trg := { s.trg with reception := r } }

/-- `ready` with one binding, B9, on the code. -/
def bound (p : BusyPolicy) (left : Nat) : State :=
  ready.setBinding 9
    { enabled := true, code, lane := 2, entry := 7, clear := true, policy := p, holdoff := 7, holdoffLeft := left }

/-- The reply that a command leaves leaving HTX, and a record the queue then holds at its tail. -/
def replyOf : Result → Option Reply
  | .next t => t.lnk.reply
  | _ => none
def lastRecord : Result → Option EventRecord
  | .next t => t.evq.queue.getLast?
  | _ => none

/-! ### Well-formed commands -/

/-- A payload of 301 bytes fits no frame. -/
theorem test_storeProgram_too_long : (Instr.storeProgram 0 0 (List.replicate 298 0)).wellFormed = false := by decide +kernel
theorem test_cueWrite_too_long : (Instr.cueWrite 0 0 (List.replicate 300 0)).wellFormed = false := by decide +kernel
theorem test_filterSet_too_long : (Instr.filterSet 0 75 (List.replicate 75 0)).wellFormed = false := by decide +kernel
theorem test_longest_payloads_fit :
    (Instr.storeProgram 0 0 (List.replicate 297 0)).wellFormed = true
    ∧ (Instr.cueWrite 0 0 (List.replicate 299 0)).wellFormed = true
    ∧ (Instr.filterSet 0 74 (List.replicate 74 0)).wellFormed = true := by decide +kernel

/-! ### Worked examples -/

/-- The check value of the CRC-16 (chapter 10). -/
theorem test_crc_check_value :
    crc16 [] = 0xFFFF ∧ crc16 [0x31, 0x32, 0x33, 0x34, 0x35, 0x36, 0x37, 0x38, 0x39] = 0x29B1 := by decide +kernel

/-- The reference points of the level law (R24). -/
theorem test_gain_reference_points :
    [4095, 3967, 3839, 3583, 3071, 2047, 1023, 1, 0].map gain = [65536, 46341, 32768, 16384, 4096, 256, 16, 1, 0] := by
  decide +kernel

/-- No code but 0, 1 and 2 is a loop mode (R121). -/
theorem test_loop_mode_codes : (List.range 256).filter (fun n => (LoopMode.ofCode (BitVec.ofNat 8 n)).isSome) = [0, 1, 2] := by
  decide +kernel

/-- A blank part reports every section BLANK (R182). -/
theorem test_blank_setup_is_reported :
    (lastRecord (exec .setupLoad State.reset)).map (fun r => (r.kind, r.value)) = some (.setupLoaded, 0x555) := by
  decide +kernel

/-- A start on a part with a clip takes V0 with generation 1 (R48). -/
theorem test_voicePlay_takes_the_first_voice :
    replyOf (exec (.voicePlay 9 orderWire) clipped) = some ⟨9, 0xB0, .ok, [0, 1, 0]⟩ := by decide +kernel

/-- A start of an EMPTY clip fails (R42). -/
theorem test_voicePlay_of_an_empty_clip :
    replyOf (exec (.voicePlay 9 orderWire) ready) = some ⟨9, 0xB0, .notDefined, []⟩ := by decide +kernel

/-- The first frame of a voice at full level and pan 7 (R25, R26): sample 50 of an S8 clip. -/
theorem test_frame_contribution :
    (match exec .frame (oneVoice (.playing sounding)) with
      | .next t => some (t.out.contributions.get 5, (t.voice 5).body)
      | _ => none)
      = some ((10939, 10419), .playing { sounding with pos := 8192 }) := by decide +kernel

/-- IDENTIFY spelled byte by byte, with its CRC, is answered (R164, R168). -/
theorem test_identify_frame :
    replyOf (execAll (frameCommands 0x21 0x01 []) ready)
      = some ⟨0x21, 0x81, .ok, [0x3A, 0x71, 0x0C, 0x16, 1, 16, 64, 1, 0, 4, 32, 64]⟩ := by decide +kernel

/-- A program that asks for a 1 where the page holds a 0 fails its verification (R131). -/
theorem test_program_verify_fail :
    (lastRecord (exec .storeStepDone
        { operating .program 2 (some 8192) 5 none with mem := [(8192, 0x0F)] })).map (fun r => (r.kind, r.reason, r.value))
      = some (.storeDone, 2, 0x01002000) := by decide +kernel

/-- A bound code starts its lane, which starves at an EMPTY entry (R93, R108). -/
theorem test_bound_code_starts_its_lane :
    (match exec (.triggerFrameComplete crcLow) (receiving (bound .ignore 0)) with
      | .next t => some ((t.lane 2).state, (t.lane 2).slot, (t.lane 2).origin, (t.binding 9).holdoffLeft)
      | _ => none)
      = some (.starved, some 7, some (.binding 9), 70) := by decide +kernel

/-- Another command taken between two blocks of a run finds the lane RUNNING at the next (R79), and can abort it. -/
theorem test_abort_between_two_blocks :
    (match exec (.laneStart 1 2 8 0) { (ready.setCue 8 (some (block (.mark 1)))).setCue 9 (some (block (.mark 2))) with
        openings := [true] } with
      | .next t => match exec .replySent t with
        | .next u => match exec (.laneAbort 2 2 0) u with
          | .next w => some ((t.lane 2).state, (t.lane 2).slot, (w.lane 2).state, w.evq.queue.map fun r => r.kind)
          | _ => none
        | _ => none
      | _ => none)
      = some (.running, some 9, .idle, [.mark, .laneIdle]) := by decide +kernel

/-- A signal sent by a block is taken before the lane's next block where another command is taken there (R79, R84). -/
theorem test_signal_taken_between_two_blocks :
    (let s : State := { (oneVoice (.held sounding .playing)).setCue 8 (some (block (.stop 1))) with openings := [true] }
     let s := s.setCue 10 (some { block (.waitVoice 1) with link := 11 })
     match exec (.laneStart 1 2 8 0) (((s.setCue 9 (some (block (.mark 2)))).setLane 2
         { Lane.cold with handles := Lane.cold.handles.set 1 (some ⟨5, 7⟩) }).setLane 3
         { waitingLane (.voice ⟨5, 7⟩) with slot := some 10 }) with
      | .next t => match exec .handleNotLive t with
        | .next u => some (t.signals, (u.lane 2).state, (u.lane 2).slot, (u.lane 3).state)
        | _ => none
      | _ => none)
      = some ([⟨5, 7⟩], .running, some 9, .starved) := by decide +kernel

/-- A retry that succeeds after its lane was aborted plays on, and its handle is not stored (R85). -/
theorem test_retry_succeeds_after_an_abort :
    (match exec (.laneAbort 1 2 0) (asked true (oneLane (waitingLane (.start order)) (block (.play ⟨1, order, .retry⟩)) clipped)) with
      | .next t => match exec .retryRound t with
        | .next u => some ((u.lane 2).state, (u.lane 2).handles.get 1, (u.voice 0).stands.isSome, u.alc.retry)
        | _ => none
      | _ => none)
      = some (.idle, none, true, none) := by decide +kernel

/-- The frames of a byte do not count for the gap: with its start bit begun three frames leave the count at 160 (R162). -/
theorem test_start_bit_stops_the_gap_count :
    (match exec (.hostByteReceived (.byte 0xB4) true) ready with
      | .next t => match exec (.hostByteReceived .startBit true) t with
        | .next u => match execAll [.frame, .frame, .frame] u, execAll [.frame, .frame, .frame] t with
          | .next a, .next b => some (a.lnk.gap, b.lnk.gap)
          | _, _ => none
        | _ => none
      | _ => none)
      = some (160, 157) := by decide +kernel

/-- A byte in reception when TRIGGER SET brings a new rate is dropped at its end, and the next byte is taken (R114). -/
theorem test_new_trigger_rate_drops_a_byte :
    (match execAll [.triggerByteReceived .startBit true, .triggerSet 1 2 0, .triggerByteReceived (.byte 0xC3) true] ready with
      | .next t => match exec (.triggerByteReceived (.byte 0xC3) true) t with
        | .next u => some (t.trg.rx, t.trg.reception, u.trg.rx)
        | _ => none
      | _ => none)
      = some (.hunting, .idle, .collecting) := by decide +kernel

/-- A byte in reception when LINK SET's reply has left is dropped at its end, and the byte of the next start bit is taken (R169). -/
theorem test_new_link_rate_drops_a_byte :
    (match execAll [.linkSet 1 0, .hostByteReceived .startBit true, .replySent, .hostByteReceived (.byte 0xB4) true] ready with
      | .next t => match execAll [.hostByteReceived .startBit true, .hostByteReceived (.byte 0xB4) true] t with
        | .next u => some (t.lnk.rx, t.lnk.reception, u.lnk.rx)
        | _ => none
      | _ => none)
      = some (.hunting, .idle, .collecting) := by decide +kernel

/-- A ramp with a move instant in the coming frame moves (R28). -/
theorem test_rampMoveInstant :
    (match exec (.rampMoveInstant 5) (oneVoice (.playing
        { sounding with level := 300, ramp := some ⟨.once, 300, 500, 50, .x1, 0, true⟩ })) with
      | .next t => some (t.voice 5).body
      | _ => none)
      = some (.playing { sounding with pos := 8192, level := 350, ramp := some ⟨.once, 300, 500, 50, .x1, 0, true⟩ }) := by
  decide +kernel


/-! ### Witnesses: states and operands that meet the hypotheses of each statement, clause by clause

Each conjunct (or a run of conjuncts on one state) is one clause's hypotheses. -/

/-- A state in which a voice sounds by a request, so that the laws hold with claims that stand. -/
def result (r : Result) : State := match r with
  | .next t => t
  | _ => State.reset
def started : State := { result (exec (.voicePlay 9 orderWire) clipped) with pending := [.frame] }

/-- States of the host link: a reply owed, and part of a frame received. -/
def owing (a : AfterReply) : State := { ready with lnk := { ready.lnk with replyOwed := true, after := a } }
def collecting (bytes : List Byte) (n : Option Nat) : State :=
  { ready with lnk := { ready.lnk with rx := .collecting, bytes := bytes, frameLength := n, gap := 3 } }

/-- A commit in flight, and sector 2 with marks of its own. -/
def committing : State := operating .commit 1 none 50 (some 1)
def marked (x : Sector) : State := { clipped with sectors := clipped.sectors.set 2 x }

/-- What every value of an Option, or every successor or cut of a voice, must meet, checked on the one value there is. -/
def cutAll (b : VoiceBody) (p : Sounding → Cut → Option Successor → Bool) : Bool := match b with
  | .cutting y c z => p y c z
  | _ => true

theorem of_all {α : Type} {x : Option α} {p : α → Bool} (h : x.all p = true) : ∀ a, x = some a → p a = true := by
  intro a e
  subst e
  exact h

theorem of_cutAll {b : VoiceBody} {p : Sounding → Cut → Option Successor → Bool} (h : cutAll b p = true) :
    ∀ y c z, b = .cutting y c z → p y c z = true := by
  intro y c z e
  subst e
  exact h

theorem witness_StepTakesTheFrontCommand :
    started.pending = .frame :: []
    ∧ ((asked true ready).pending = [] ∧ (asked true ready).alc.retry ≠ none)
    ∧ (State.reset.pending = [] ∧ State.reset.alc.retry = none ∧ ∀ l : Fin 4, (State.reset.lane l).state ≠ .running) := by
  decide +kernel

theorem witness_RequestByLinkState :
    (requestHead (.identify 7) = some (7, 0x01) ∧ ready.takesRequests)
    ∧ State.reset.lnk.rx = .off
    ∧ (owing .nothing).lnk.rx ≠ .off ∧ (owing .nothing).lnk.replyOwed = true := by decide +kernel

theorem witness_RefusedRequestChangesNothing :
    (∀ t r, exec (.voicePlay 9 orderWire) ready = .next t → t.lnk.reply = some r →
      (requestHead (.voicePlay 9 orderWire)).isSome = true ∧ ready.takesRequests ∧ r.status ≠ .ok ∧ r.status ≠ .accepted
      ∧ r.status ≠ .badField ∧ r.type = 0xB0)
    ∧ replyOf (exec (.voicePlay 9 orderWire) ready) = some ⟨9, 0xB0, .notDefined, []⟩
    ∧ replyOf (exec (.linkSet 9 4) ready) = some ⟨9, 0x83, .badField, [0]⟩ := by
  refine ⟨?_, by decide +kernel, by decide +kernel⟩
  intro t r h e
  have hr : replyOf (exec (.voicePlay 9 orderWire) ready) = some ⟨9, 0xB0, .notDefined, []⟩ := by decide +kernel
  rw [h] at hr
  have : r = ⟨9, 0xB0, .notDefined, []⟩ := Option.some.inj (e.symm.trans hr)
  subst this
  decide +kernel

theorem witness_FrameBytesSpellTheirRequest :
    requestHead (.filterSet 5 2 [code, 0]) = some (5, 0x38) ∧ (Instr.filterSet 5 2 [code, 0]).wellFormed = true
    ∧ ready.lnk.rx = .hunting ∧ ready.lnk.reception ≠ .dropped := by decide +kernel

theorem witness_BytesByReceiverState :
    State.reset.lnk.rx = .off ∧ ready.lnk.rx = .hunting
    ∧ ((collecting [] none).lnk.rx = .collecting ∧ (collecting [] none).lnk.bytes = []
      ∧ (collecting [] none).lnk.frameLength = none)
    ∧ (collecting [1] none).lnk.bytes = [1]
    ∧ (let n := (1 : Byte).toNat * 256 + (46 : Byte).toNat
       2 ≤ n ∧ n ≤ 302)
    ∧ (let n := (1 : Byte).toNat * 256 + (47 : Byte).toNat
       n < 2 ∨ 302 < n)
    ∧ ((collecting [0, 2, 7, 1] (some 2)).lnk.bytes.length + 1 < 2 + 4
      ∧ 2 ≤ (collecting [0, 2, 7, 1] (some 2)).lnk.bytes.length)
    ∧ State.reset.trg.rx = .off ∧ ready.trg.rx = .hunting
    ∧ ((receiving ready).trg.rx = .collecting ∧ (receiving ready).trg.bytes.length = 5)
    ∧ ({ (receiving ready).trg with bytes := codeBytes code }).bytes.length < 5
    ∧ ((collecting [] none).lnk.reception ≠ .dropped ∧ (receiving ready).trg.reception ≠ .dropped)
    ∧ (let s := inReception .begun ready
       s.lnk.rx ≠ .off ∧ s.lnk.reception ≠ .dropped ∧ s.trg.rx ≠ .off ∧ s.trg.reception ≠ .dropped)
    ∧ (let s := inReception .dropped ready
       s.lnk.rx ≠ .off ∧ s.lnk.reception = .dropped ∧ s.trg.rx ≠ .off ∧ s.trg.reception = .dropped) := by decide +kernel

theorem witness_CompletedFrameIsChecked :
    (let s := collecting ((frameBytes 5 0x7F []).tail.dropLast) (some 2)
     s.lnk.rx = .collecting ∧ s.lnk.frameLength = some 2 ∧ s.lnk.bytes.length = 2 + 3 ∧ s.lnk.reception ≠ .dropped
     ∧ s.lnk.replyOwed = false
     ∧ halfBytes (crc16 (s.lnk.bytes.take 4)) = s.lnk.bytes.drop 4 ++ [(frameBytes 5 0x7F []).getLast?.getD 0]
     ∧ ¬(halfBytes (crc16 (s.lnk.bytes.take 4)) = s.lnk.bytes.drop 4 ++ [(frameBytes 5 0x7F []).getLast?.getD 0 + 1])
     ∧ ((s.lnk.bytes.take 4).getD 3 0).toNat ∉ requestTypes ∧ ((s.lnk.bytes.take 4).getD 3 0).toNat < 0x80)
    ∧ (let s := collecting ((frameBytes 5 0x80 []).tail.dropLast) (some 2)
       s.lnk.bytes.length = 2 + 3 ∧ s.lnk.replyOwed = false
       ∧ halfBytes (crc16 (s.lnk.bytes.take 4)) = s.lnk.bytes.drop 4 ++ [(frameBytes 5 0x80 []).getLast?.getD 0]
       ∧ 0x80 ≤ ((s.lnk.bytes.take 4).getD 3 0).toNat)
    ∧ (let s : State := { owing .nothing with lnk := { (collecting [0, 2, 7, 1, 0] (some 2)).lnk with replyOwed := true } }
       s.lnk.rx = .collecting ∧ s.lnk.frameLength = some 2 ∧ s.lnk.bytes.length = 2 + 3 ∧ s.lnk.replyOwed = true) := by
  decide +kernel

theorem witness_IdentifyAnswersTheIdentity : ready.takesRequests := by decide +kernel

theorem witness_LinkSetTakesTheRateAfterItsReply :
    ready.takesRequests ∧ 3 < (4 : Byte).toNat
    ∧ ((inReception .begun ready).takesRequests ∧ (inReception .begun ready).lnk.reception ≠ .idle)
    ∧ ((3 : Byte) = 3 ∧ LinkRate.b230400 = .b230400) ∧ ((2 : Byte) = 2 ∧ LinkRate.b115200 = ready.lnk.rate)
    ∧ ((owing .nothing).lnk.replyOwed = true ∧ (owing .nothing).lnk.after = .nothing)
    ∧ ready.lnk.replyOwed = false := by decide +kernel

theorem witness_WarmResetAtEveryBlock : started.pending = [.frame] ∧ (receiving ready).takesRequests := by decide +kernel

theorem witness_ColdResetAtEveryBlock :
    ready.takesRequests
    ∧ ((owing .coldReset).lnk.replyOwed = true ∧ (owing .coldReset).lnk.after = .coldReset)
    ∧ (ready.nrst = false ∧ ready.power = true) := by decide +kernel

theorem witness_SupplyLostAndReturned :
    (ready.power = true ∧ ready.op = none)
    ∧ ((operating .erase 2 none 50 none).power = true
      ∧ (operating .erase 2 none 50 none).op.map (fun r => (r.sector, r.page)) = some (2, none))
    ∧ ((operating .program 2 (some 8192) 5 none).power = true
      ∧ (operating .program 2 (some 8192) 5 none).op.map (fun r => r.page) = some (some 8192)
      ∧ ¬(8192 ≤ 8191 ∧ 8191 < 8192 + 256))
    ∧ (result (exec .powerLoss started)).power = false := by decide +kernel

theorem witness_BlankSetupLoadsTheDefaults :
    (State.reset.power = true ∧ State.reset.nrst = false ∧ State.reset.coldWait = false ∧ State.reset.loadDue = true
      ∧ State.reset.evq.queue.length < 64 ∧ ∀ a, a < 24 → Memory.read State.reset.mem a = 0xFF)
    ∧ ready.loadDue = false := by decide +kernel

/-- The cells of some bytes from an address on. -/
def cells (a : Nat) : List Byte → Memory
  | [] => []
  | b :: rest => (a, b) :: cells (a + 1) rest

theorem read_cells_beyond (l : List Byte) (m : Memory) (a x : Nat) (h : a + l.length ≤ x) :
    Memory.read (cells a l ++ m) x = Memory.read m x := by
  induction l generalizing a with
  | nil => rfl
  | cons b l ih =>
    simp only [List.length_cons] at h
    show (if a = x then b else Memory.read (cells (a + 1) l ++ m) x) = _
    rw [if_neg (by omega), ih (a + 1) (by omega)]

/-- Six sections in their places: 64 EMPTY clips and 256 EMPTY slots by their first bytes, 32 bindings by their lanes and
policies, an empty filter list, settings, and an autostart slot for L1. -/
def sections : Memory :=
  ((List.range 64).map fun i => (24 + 19 * i, 0)) ++ ((List.range 32).flatMap fun i => [(1245 + 10 * i, 0), (1248 + 10 * i, 0)])
    ++ cells 1560 ([0] ++ [1, 0x0F, 0xFF, 0, 0, 1, 15, 2, 2] ++ [0, 0, 1, 7, 0, 0, 0, 9])
    ++ (List.range 256).map fun i => (4096 + 16 * i, 0)

/-- An entry of the section table, for the bytes that stand at a place. -/
def entryAt (a n : Nat) : List Byte :=
  be16 n ++ halfBytes (crc16 ((List.range n).map fun k => Memory.read sections (a + k)))

/-- A part whose setup area holds these six sections whole, and one whose section table fits no section. -/
def filled : State :=
  { State.reset with
    mem := cells 0 (entryAt 24 1216 ++ entryAt 4096 4096 ++ entryAt 1240 320 ++ entryAt 1560 1 ++ entryAt 1561 9 ++ entryAt 1570 8)
      ++ sections }
def spoiled : State := { State.reset with mem := [(0, 0)] }

theorem filled_reads {x : Nat} (h : 24 ≤ x) : Memory.read filled.mem x = Memory.read sections x :=
  read_cells_beyond _ _ 0 x h

theorem filled_bytes {a : Nat} (h : 24 ≤ a) (n : Nat) :
    ((List.range n).map fun k => Memory.read filled.mem (a + k)) = (List.range n).map fun k => Memory.read sections (a + k) :=
  List.map_congr_left fun _ _ => filled_reads (by omega)

theorem ok_of_passed {α : Type} {x : Except Nat α} (h : (passed x).isSome = true) : ∃ y, x = .ok y := by
  cases x with
  | ok y => exact ⟨y, rfl⟩
  | error e => cases h

/-- The setup area of `filled` meets the clauses of a LOADED section, all six of them: lengths, places, CRCs and fields. -/
theorem witness_BlankSetupLoadsTheDefaults_loaded :
    let m (a : Nat) : Byte := Memory.read filled.mem a
    let bytes (a n : Nat) : List Byte := (List.range n).map fun k => m (a + k)
    let whole (i a n : Nat) : Prop := halfBytes (crc16 (bytes a n)) = [m (4 * i + 2), m (4 * i + 3)]
    (filled.power = true ∧ filled.nrst = false ∧ filled.coldWait = false ∧ filled.loadDue = true ∧ m 0 ≠ 0xFF)
    ∧ ((List.range 6).map fun i => (m (4 * i)).toNat * 256 + (m (4 * i + 1)).toNat) = [1216, 4096, 320, 1, 9, 8]
    ∧ whole 0 24 1216 ∧ whole 1 4096 4096 ∧ whole 2 1240 320 ∧ whole 3 1560 1 ∧ whole 4 1561 9 ∧ whole 5 1570 8
    ∧ (∀ i : Fin 64, m (24 + 19 * i.val) = 0) ∧ (∀ i : Fin 256, m (4096 + 16 * i.val) = 0)
    ∧ (∀ i : Fin 32, ∃ b, bindingOf (bindingWireOf (bytes (1240 + 10 * i.val) 10)) = .ok b)
    ∧ m 1560 = 0 ∧ bytes 1561 9 = [1, 0x0F, 0xFF, 0, 0, 1, 15, 2, 2] ∧ bytes 1570 8 = [0, 0, 1, 7, 0, 0, 0, 9] := by
  intro m bytes whole
  have hw : ∀ i a n, 24 ≤ a → [m (4 * i + 2), m (4 * i + 3)]
      = halfBytes (crc16 ((List.range n).map fun k => Memory.read sections (a + k))) → whole i a n := by
    intro i a n ha h
    show halfBytes (crc16 (bytes a n)) = _
    rw [h, show bytes a n = _ from filled_bytes ha n]
  refine ⟨by decide +kernel, by decide +kernel, hw 0 _ _ (by decide) rfl, hw 1 _ _ (by decide) rfl, hw 2 _ _ (by decide) rfl,
    hw 3 _ _ (by decide) rfl, hw 4 _ _ (by decide) rfl, hw 5 _ _ (by decide) rfl, fun i => ?_, fun i => ?_, fun i => ?_,
    by decide +kernel, by decide +kernel, by decide +kernel⟩
  · rw [show m (24 + 19 * i.val) = _ from filled_reads (by omega)]
    revert i; decide +kernel
  · rw [show m (4096 + 16 * i.val) = _ from filled_reads (by omega)]
    revert i; decide +kernel
  · rw [show bytes (1240 + 10 * i.val) 10 = _ from filled_bytes (by omega) 10]
    refine ok_of_passed ?_
    revert i; decide +kernel

/-- In `spoiled` every section is CORRUPT by its length. -/
theorem witness_BlankSetupLoadsTheDefaults_corrupt :
    Memory.read spoiled.mem 0 ≠ 0xFF ∧ (Memory.read spoiled.mem 0).toNat * 256 + (Memory.read spoiled.mem 1).toNat ≠ 1216
    ∧ (Memory.read spoiled.mem 4).toNat * 256 + (Memory.read spoiled.mem 5).toNat ≠ 4096
    ∧ (lastRecord (exec .setupLoad spoiled)).map (fun r => r.value) = some 0xAAA := by decide +kernel

theorem witness_CueBlockBytesReadBack :
    (block (.waitTime 65535)).inRange = true ∧ ({ block (.repeatTo 8 255) with quiet := 31 }).inRange = true
    ∧ (block (.play ⟨1, { order with level := 4095, loopCount := 255 }, .retry⟩)).inRange = true := by decide +kernel

/-! The clip directory and the store. -/

def clipWire : ClipWire :=
  { clip := 3, format := 2, base := 8192, count := 50, loopMode := 2, loopStart := 1, loopEnd := 40, step := 4096
    releaseRate := 3, releaseScale := 2 }
def recordOf (w : ClipWire) : ClipRecord := match clipRecordOf w with
  | .ok r => r
  | .error _ => clipA

/-- The first bad field of a clip request, as the statement has it. -/
def badClipField (w : ClipWire) : Option Nat :=
  let n := w.count.toNat
  let last := if w.format = 2 then w.base.toNat + 2 * n - 1 else w.base.toNat + n - 1
  if 63 < w.clip.toNat then some 0
  else if 2 < w.format.toNat then some 1
  else if w.base.toNat < 8192 ∨ 524287 < w.base.toNat ∨ (w.format = 2 ∧ w.base.toNat % 2 = 1) then some 2
  else if n < 2 ∨ 524287 < last then some 5
  else if 2 < w.loopMode.toNat then some 8
  else if w.loopMode ≠ 0 ∧ n < w.loopStart.toNat + 2 then some 9
  else if w.loopMode ≠ 0 ∧ (w.loopEnd.toNat ≤ w.loopStart.toNat ∨ n ≤ w.loopEnd.toNat) then some 12
  else if w.step = 0 then some 15
  else if w.releaseRate ≠ 0 ∧ 3 < w.releaseScale.toNat then some 18
  else none

theorem witness_ClipDefineChecksAndRecords :
    [{ clipWire with clip := 64 }, { clipWire with format := 3 }, { clipWire with base := 8191 },
      { clipWire with base := 8193 }, { clipWire with count := 1 }, { clipWire with base := 524188, count := 51 },
      { clipWire with loopMode := 3 }, { clipWire with loopStart := 49 }, { clipWire with loopEnd := 50 },
      { clipWire with loopEnd := 1 }, { clipWire with step := 0 }, { clipWire with releaseScale := 4 }, clipWire,
      { clipWire with base := 524188, clip := 63, loopStart := 48, loopEnd := 49 }].map badClipField
      = [some 0, some 1, some 2, some 2, some 5, some 5, some 8, some 9, some 12, some 12, some 15, some 18, none, none]
    ∧ ready.takesRequests ∧ clipWire.clip.toNat = (3 : Fin 64).val ∧ clipRecordOf clipWire = .ok (recordOf clipWire)
    ∧ (committing.takesRequests ∧ committing.commitInFlight = true)
    ∧ (ready.commitInFlight = false ∧ (ready.clip 3).useCount = 0)
    ∧ 0 < (started.clip 3).useCount
    ∧ (∃ i : Fin 128, (recordOf clipWire).touches i = true ∧ ((marked ⟨true, 0, false, false⟩).sectors.get i).suspect = true)
    ∧ ¬∃ i : Fin 128, (recordOf clipWire).touches i = true ∧ (ready.sectors.get i).suspect = true :=
  ⟨by decide +kernel, by decide +kernel, by decide +kernel, rfl, by decide +kernel, by decide +kernel, by decide +kernel,
    by decide +kernel, by decide +kernel⟩

/-- `started` when its reply has gone. -/
def playingOne : State := result (exec .replySent started)

theorem witness_ClipDeleteAndClipRead :
    ready.takesRequests ∧ 63 < (64 : Byte).toNat ∧ (63 : Byte).toNat = (63 : Fin 64).val
    ∧ (committing.takesRequests ∧ committing.commitInFlight = true)
    ∧ (playingOne.takesRequests ∧ playingOne.commitInFlight = false ∧ 0 < (playingOne.clip 3).useCount)
    ∧ (clipped.commitInFlight = false ∧ (clipped.clip 3).useCount = 0)
    ∧ (ready.clip 63).record = none ∧ (clipped.clip 4).record = some clipB := by decide +kernel

theorem witness_StoreReadAndStoreStatus :
    ready.takesRequests ∧ 524287 < (524288 : Addr).toNat
    ∧ ((524287 : Addr).toNat ≤ 524287 ∧ 524287 < (524287 : Addr).toNat + (2 : Half).toNat - 1)
    ∧ ((8191 : Addr).toNat + (256 : Half).toNat - 1 ≤ 524287
      ∧ (∃ k, k < (256 : Half).toNat ∧ ∃ i : Fin 128, i.val = ((8191 : Addr).toNat + k) / 4096
          ∧ ((marked ⟨false, 0, true, true⟩).sectors.get i).busy = true)
      ∧ (∀ i : Fin 128, (ready.sectors.get i).busy = false))
    ∧ ready.op = none ∧ committing.op.isSome = true :=
  ⟨by decide +kernel, by decide +kernel, by decide +kernel,
    ⟨by decide +kernel, ⟨1, by decide +kernel, 2, by decide +kernel, by decide +kernel⟩, by decide +kernel⟩,
    by decide +kernel, by decide +kernel⟩

theorem witness_StoreOperationsBegin :
    ready.takesRequests ∧ committing.takesRequests ∧ committing.op.isSome = true ∧ ready.op = none
    ∧ 127 < (128 : Byte).toNat ∧ (127 : Byte).toNat = (127 : Fin 128).val ∧ (2 : Byte).toNat = (2 : Fin 128).val
    ∧ (1 : Byte).toNat = (1 : Fin 128).val ∧ (1 : Fin 128).val < 2 ∧ 2 ≤ (2 : Fin 128).val
    ∧ 0 < ((playingOne.sectors).get 2).useCount ∧ playingOne.op = none ∧ playingOne.takesRequests
    ∧ (ready.sectors.get 127).useCount = 0
    ∧ (page.length = 256 ∧ ([] : List Byte).length ≠ 256)
    ∧ (524287 < (524288 : Addr).toNat ∧ (8193 : Addr).toNat % 256 ≠ 0)
    ∧ ((8448 : Addr).toNat % 256 = 0 ∧ (8448 : Addr).toNat / 4096 = (2 : Fin 128).val)
    ∧ ((7936 : Addr).toNat % 256 = 0 ∧ (7936 : Addr).toNat / 4096 = (1 : Fin 128).val) := by decide +kernel

theorem witness_StepOfAnEraseEnds :
    (let s := operating .erase 2 none 50 none
     s.op.map (fun r => (r.op, r.page)) = some (.erase, none) ∧ s.coldWait = false)
    ∧ (let s : State := { operating .program 2 (some 8192) 5 none with coldWait := true }
       s.op.isSome = true ∧ s.coldWait = true) := by decide +kernel

theorem witness_ProgramEndsWithVerification :
    (let s := operating .program 2 (some 8192) 5 none
     s.op.map (fun r => (r.op, r.page, r.data)) = some (.program, some 8192, some page)
     ∧ page.length = 256 ∧ s.coldWait = false ∧ Memory.wf s.mem = true
     ∧ ∀ k, k < 256 → Memory.read s.mem (8192 + k) &&& page.getD k 0
        = page.getD k 0)
    ∧ (let s : State := { operating .program 2 (some 8192) 5 none with mem := [(8192, 0x0F)] }
       Memory.wf s.mem = true ∧ Memory.read s.mem 8192 &&& 0xF0 ≠ 0xF0) := by decide +kernel

theorem witness_StepRunsOutOfTime :
    (let s := tickNext (operating .erase 2 none 1 none)
     s.power = true ∧ s.out.frameSub = 31 ∧ s.progress.store = false ∧ s.progress.count = false ∧ s.nrst = false
     ∧ s.op.map (fun r => (r.limitLeft, r.page)) = some (1, none) ∧ s.coldWait = false
     ∧ ¬((2 : Fin 128).val * 4096 ≤ 8191 ∧ 8191 < (2 : Fin 128).val * 4096 + 4096))
    ∧ (tickNext (operating .program 2 (some 8192) 1 none)).op.map (fun r => (r.limitLeft, r.page)) = some (1, some 8192)
    ∧ (let s : State := { tickNext (operating .erase 2 none 0 none) with coldWait := true, nrst := true }
       s.power = true ∧ s.out.frameSub = 31 ∧ s.op.map (fun r => r.limitLeft) = some 0 ∧ s.coldWait = true ∧ s.nrst = true)
    ∧ (tickNext ready).op = none
    ∧ (tickNext (operating .erase 2 none 2 none)).op.map (fun r => decide (1 < r.limitLeft)) = some true := by
  decide +kernel

/-- A program step of a commit, with the bytes it programs. -/
def commitPage (k : Nat) (addr : Nat) (image : List Byte) : State :=
  { ready with op := some { op := .commit, sector := 1, page := some addr, limitLeft := 5, commitStep := some k, data := none
                            image := some image } }

theorem witness_CommitStepsFollow :
    (let s := operating .commit 1 none 50 (some 1)
     s.op.map (fun r => (r.op, r.commitStep, (r.finished s.mem).2)) = some (.commit, some 1, .ok) ∧ s.coldWait = false)
    ∧ (let s := operating .commit 0 none 50 (some 18)
       s.op.map (fun r => (r.commitStep, (r.finished s.mem).2)) = some (some 18, .ok))
    ∧ (let s := operating .commit 0 (some 1536) 50 (some 25)
       s.op.map (fun r => (r.op, r.commitStep, r.sector, r.page, (r.finished s.mem).2))
        = some (.commit, some 25, 0, some 1536, .ok)) := by decide +kernel

theorem witness_CommitStepsFollow_pages :
    (let s := commitPage 16 7936 page
     s.op.map (fun r => (r.op, r.commitStep, (r.finished s.mem).2)) = some (.commit, some 16, .ok)
     ∧ s.op.map (fun r => (r.page, r.data, r.image)) = some (some 7936, none, some page)
     ∧ page.length = 256 ∧ Memory.wf s.mem = true)
    ∧ (let s := commitPage 17 7936 page
       s.op.map (fun r => (r.commitStep, (r.finished s.mem).2)) = some (some 17, .ok))
    ∧ (let s : State := { commitPage 2 4096 page with mem := [(4097, 0)] }
       s.op.map (fun r => (r.op, r.commitStep, (r.finished s.mem).2)) = some (.commit, some 2, .verifyFail) ∧ s.coldWait = false
       ∧ Memory.wf s.mem = true
       ∧ s.op.map (fun r => decide (Memory.read (r.finished s.mem).1 (4096 + 1) ≠ 0x5A)) = some true) := by
  decide +kernel

/-! The cue memory and the lanes. -/

/-- A WAIT_TIME block of 100 milliseconds with link 9, in its sixteen bytes. -/
def waitBytes : List Byte := [5, 0, 9, 0, 0, 100, 0, 0, 0, 0, 0, 0, 0, 0, 0, 0]

/-- A lane that waits at slot 8 to retry a PLAY, and the states around it. -/
def playBlock : CueBlock := block (.play ⟨1, order, .retry⟩)
def retryingLane : Lane := waitingLane (.start order)
def offered (s : State) : State := { s with alc := { s.alc with offerDue := true } }
def signalled (s : State) : State := { s with signals := [⟨5, 7⟩, ⟨6, 1⟩] }

/-- The first field of a block that fails, as the statement has it. -/
def badCueField (block : List Byte) : Option Nat :=
  let p (i : Nat) : Nat := (block.getD i 0).toNat
  let last := (block.getD 1 0).getLsbD 0 = true
  let pause := (block.getD 1 0).getLsbD 1 = true
  if p 0 = 0 ∨ 9 < p 0 then some 0
  else if (last ∧ pause) ∨ (p 0 = 8 ∧ (last ∨ pause)) then some 1
  else if 31 < p 3 then some 3
  else if p 0 = 1 then
    if 63 < p 4 then some 4 else if 3 < p 5 then some 5 else if 7 < p 6 then some 6 else if 7 < p 7 then some 7
    else if 4095 < p 10 * 256 + p 11 then some 10 else if 15 < p 12 then some 12
    else if p 15 / 16 % 4 = 3 then some 15 else none
  else if p 0 = 2 then
    if 3 < p 4 then some 4 else if 4095 < p 5 * 256 + p 6 then some 5 else if p 7 = 0 then some 7
    else if 3 < p 8 then some 8 else if 2 < p 9 then some 9 else none
  else if p 0 = 3 ∨ p 0 = 4 ∨ p 0 = 6 then (if 3 < p 4 then some 4 else none)
  else if p 0 = 5 then (if p 4 = 0 ∧ p 5 = 0 then some 4 else none)
  else if p 0 = 8 then (if p 5 = 0 then some 5 else none)
  else none

/-- A PLAY, a RAMP, a RELEASE and a REPEAT block with every field at its greatest, in their sixteen bytes. -/
def playBytes : List Byte := [1, 1, 9, 31, 63, 3, 7, 7, 255, 255, 15, 255, 15, 255, 255, 0xEF]
def rampBytes : List Byte := [2, 2, 9, 31, 3, 15, 255, 255, 3, 2, 255, 0, 0, 0, 0, 0]
def releaseBytes : List Byte := [3, 0, 9, 31, 3, 0, 0, 0, 0, 0, 0, 0, 0, 0, 0, 0]
def repeatBytes : List Byte := [8, 4, 9, 31, 255, 255, 0, 0, 0, 0, 0, 0, 0, 0, 0, 0]

theorem witness_CueWriteStoresAndWakes_fields :
    [playBytes.set 0 0, playBytes.set 0 10, playBytes.set 1 3, repeatBytes.set 1 1, playBytes.set 3 32, playBytes.set 4 64,
      playBytes.set 5 4, playBytes.set 6 8, playBytes.set 7 8, playBytes.set 10 16, playBytes.set 12 16, playBytes.set 15 0x30,
      rampBytes.set 4 4, rampBytes.set 5 16, rampBytes.set 7 0, rampBytes.set 8 4, rampBytes.set 9 3, releaseBytes.set 4 4,
      waitBytes.set 5 0, repeatBytes.set 5 0].map badCueField
      = [some 0, some 0, some 1, some 1, some 3, some 4, some 5, some 6, some 7, some 10, some 12, some 15, some 4, some 5, some 7,
        some 8, some 9, some 4, some 4, some 5]
    ∧ [playBytes, rampBytes, releaseBytes, repeatBytes, waitBytes, [9, 0, 9, 0, 0, 0, 0, 0, 0, 0, 0, 0, 0, 0, 0, 0]].map badCueField
      = [none, none, none, none, none, none]
    ∧ ∀ b ∈ [playBytes, rampBytes, releaseBytes, repeatBytes, waitBytes], b.length = 16 := by decide +kernel

theorem witness_CueWriteStoresAndWakes :
    ready.takesRequests ∧ ([] : List Byte).length ≠ 16
    ∧ (waitBytes.length = 16 ∧ cueBlockOf (waitBytes.set 5 0) = .error 4 ∧ cueBlockOf waitBytes = .ok (block (.waitTime 100)))
    ∧ (committing.takesRequests ∧ committing.commitInFlight = true)
    ∧ (let s := oneLane pausedLane (block (.waitTime 100)) ready
       s.commitInFlight = false ∧ (s.lane 2).slot = some (8 : Byte).toFin ∧ (s.lane 2).state = .paused)
    ∧ (ready.commitInFlight = false ∧ ∀ l : Fin 4, (ready.lane l).slot = none)
    ∧ (let s := oneLane starvedLane (block (.waitTime 100)) ready
       s.takesRequests ∧ s.commitInFlight = false ∧ (s.lane 2).state = .starved ∧ (s.lane 2).slot = some (8 : Byte).toFin
       ∧ ∀ k : Fin 4, k ≠ 2 → (s.lane k).slot ≠ some (8 : Byte).toFin) :=
  ⟨by decide +kernel, by decide +kernel, ⟨by decide +kernel, rfl, rfl⟩, by decide +kernel, by decide +kernel,
    by decide +kernel, by decide +kernel⟩

theorem witness_CueClearAndCueRead :
    ready.takesRequests ∧ (4 : Byte).toNat < (5 : Byte).toNat ∧ (4 : Byte).toNat ≤ (4 : Byte).toNat
    ∧ (committing.takesRequests ∧ committing.commitInFlight = true)
    ∧ (let s := oneLane pausedLane (block (.waitTime 100)) ready
       s.commitInFlight = false
       ∧ (∃ (l : Fin 4) (k : Fin 256), (s.lane l).slot = some k ∧ (8 : Byte).toNat ≤ k.val ∧ k.val ≤ (8 : Byte).toNat
         ∧ ((s.lane l).state = .running ∨ (s.lane l).state = .waiting ∨ (s.lane l).state = .paused
           ∨ (s.lane l).state = .faulted))
       ∧ ¬∃ (l : Fin 4) (k : Fin 256), (s.lane l).slot = some k ∧ (9 : Byte).toNat ≤ k.val ∧ k.val ≤ (255 : Byte).toNat
         ∧ ((s.lane l).state = .running ∨ (s.lane l).state = .waiting ∨ (s.lane l).state = .paused
           ∨ (s.lane l).state = .faulted))
    ∧ (255 < (241 : Byte).toNat + (16 : Byte).toNat - 1 ∧ (240 : Byte).toNat + (16 : Byte).toNat ≤ 256
      ∧ 16 < (17 : Byte).toNat) :=
  ⟨by decide +kernel, by decide +kernel, by decide +kernel, by decide +kernel,
    ⟨by decide +kernel, ⟨2, 8, by decide +kernel⟩, by decide +kernel⟩, by decide +kernel⟩

theorem witness_LaneStartRunsTheLane :
    ready.takesRequests ∧ 3 < (4 : Byte).toNat ∧ (2 : Byte).toNat = (2 : Fin 4).val
    ∧ (let s := oneLane pausedLane (block (.waitTime 100)) ready
       s.takesRequests ∧ (s.lane 2).state ≠ .idle ∧ (s.lane 2).state ≠ .faulted)
    ∧ ((ready.lane 2).state = .idle ∧ ready.cues.get (8 : Byte).toFin = none)
    ∧ (let s := oneLane quietLane (block (.waitTime 1)) ready
       s.takesRequests ∧ (s.lane 2).state = .idle ∧ s.cues.get (8 : Byte).toFin = some (block (.waitTime 1)))
    ∧ (let s := oneLane faultedLane (block (.waitCode code)) ready
       s.takesRequests ∧ (s.lane 2).state = .faulted ∧ s.cues.get (8 : Byte).toFin = some (block (.waitCode code)))
    ∧ (let s := oneLane { Lane.cold with handles := Lane.cold.handles.set 1 (some ⟨5, 7⟩) } (block (.waitVoice 1))
         (oneVoice (.playing sounding))
       s.takesRequests ∧ (s.lane 2).state = .idle ∧ s.cues.get (8 : Byte).toFin = some (block (.waitVoice 1))
       ∧ (s.lane 2).handles.get 1 = some ⟨5, 7⟩ ∧ s.handleKind ⟨5, 7⟩ ≠ .stale)
    ∧ (let b : CueBlock := { block (.mark 0xABCD) with last := true, note := true, quiet := 31 }
       let s := oneLane Lane.cold b ready
       s.takesRequests ∧ s.cues.get (8 : Byte).toFin = some b ∧ b.last = true ∧ b.pause = false)
    ∧ (let b : CueBlock := { block (.mark 0xABCD) with pause := true, quiet := 31 }
       let s := oneLane quietLane b ready
       s.takesRequests ∧ (s.lane 2).state = .idle ∧ s.cues.get (8 : Byte).toFin = some b ∧ b.pause = true) := by decide +kernel

/-- L2 is RUNNING at slot 8, which holds this block. -/
def running (b : CueBlock) (s : State) : State := oneLane runningLane b s

/-- A PLAY block for a clip, by its policy. -/
def playing (c : Fin 64) (p : NoVoicePolicy) : CueBlock := block (.play ⟨1, { order with clip := c }, p⟩)

/-- Every voice plays with the priority of `order`. -/
def crowded : State := allIn (.playing { sounding with priority := 5 })

/-- A RUNNING lane that goes on toward an EMPTY link, at its first block. -/
theorem witness_LaneStartRunsTheLane_running :
    (let b := block (.mark 0xABCD)
     let s := running b ready
     s.pending = [] ∧ s.alc.retry = none ∧ (s.lane 2).state = .running ∧ (∀ j : Fin 4, j < 2 → (s.lane j).state ≠ .running)
     ∧ (s.lane 2).slot = some 8 ∧ s.cues.get 8 = some b
     ∧ b.pause = false ∧ b.last = false ∧ (s.lane 2).pauseRequested = false ∧ (s.lane 2).budget < 63 ∧ s.cues.get b.link = none)
    ∧ ((running (block (.mark 1)) ready).setLane 2 { runningLane with budget := 63 }).pending = []
    ∧ (let s := (running (block (.mark 1)) ready).setCue 9 (some (block (.waitTime 5)))
       s.cues.get (block (.mark 1)).link = some (block (.waitTime 5)) ∧ s.openings.headD false = false
       ∧ ({ s with openings := [true] } : State).openings.headD false = true) := by decide +kernel

/-- A RUNNING lane at its 63rd block at once, which ends or pauses the run: PAUSE, a pause request at a LAST block, and LAST, with
no pending start and with one for an EMPTY slot. -/
theorem witness_LaneStartRunsTheLane_pauses_and_ends :
    (let b : CueBlock := { block (.mark 1) with pause := true, note := true, quiet := 1 }
     let s := (running b ready).setLane 2 { runningLane with budget := 62 }
     s.pending = [] ∧ s.alc.retry = none ∧ (s.lane 2).state = .running ∧ (s.lane 2).slot = some 8 ∧ s.cues.get 8 = some b
     ∧ (s.lane 2).budget < 63 ∧ b.pause = true)
    ∧ (let b : CueBlock := { block (.stop 1) with last := true }
       let s := (running b ready).setLane 2 { runningLane with pauseRequested := true }
       (s.lane 2).pauseRequested = true ∧ (s.lane 2).budget < 63 ∧ (s.lane 2).handles.get 1 = none)
    ∧ (let b : CueBlock := { block (.mark 1) with last := true }
       let s := running b ready
       s.cues.get 8 = some b ∧ b.last = true ∧ b.pause = false ∧ (s.lane 2).pauseRequested = false
       ∧ (s.lane 2).pendingStart = none
       ∧ (let t := s.setLane 2 { runningLane with pendingStart := some ⟨9, 7, true⟩ }
          (t.lane 2).pendingStart = some ⟨9, 7, true⟩ ∧ t.cues.get 7 = none)) := by decide +kernel

/-- A PLAY block: a FREE voice, an order that ALC binds or attaches, and each failure. -/
theorem witness_LaneStartRunsTheLane_play :
    (let s := running (playing 3 .skip) clipped
     (s.clip 3).record = some clipA ∧ s.sectorsClear clipA ∧ s.groupAlone order ∧ (s.voice 0).body = .free
     ∧ (∀ w : Fin 16, ¬w < 0) ∧ (s.takeOrder order (.lane 2)).1 = .sounding ⟨0, 1⟩)
    ∧ ((allIn (.cutting sounding ⟨9, .stopped, 7⟩ none)).takeOrder order (.lane 2)).1 = .awaiting ⟨0, 8⟩
    ∧ (running (playing 60 .retry) clipped).orderFails { order with clip := 60 } .notDefined
    ∧ (running (playing 3 .fault) (marked ⟨false, 0, true, true⟩)).orderFails order .clipBusy
    ∧ (running (playing 3 .skip) (marked ⟨true, 0, false, true⟩)).orderFails order .suspect
    ∧ (running (playing 3 .retry) crowded).orderFails order .noVoice := by
  have free : ∀ {s : State}, (∀ i : Fin 128, (s.sectors.get i).busy = false ∧ (s.sectors.get i).suspect = false) →
      s.sectorsClear clipA := fun h i _ => h i
  refine ⟨⟨by decide +kernel, free (by decide +kernel), Or.inl rfl, by decide +kernel, by decide +kernel, by decide +kernel⟩,
    by decide +kernel, ?_, ⟨clipA, by decide +kernel, 2, by decide +kernel⟩,
    ⟨clipA, by decide +kernel, by decide +kernel, 2, by decide +kernel⟩,
    ⟨clipA, by decide +kernel, free (by decide +kernel)⟩, Or.inl rfl, fun v => Or.inr ⟨{ sounding with priority := 5 }, ?_⟩⟩
  · show ((running (playing 60 .retry) clipped).clip 60).record = none
    decide +kernel
  · revert v; decide +kernel

/-- RAMP, RELEASE, STOP and WAIT_VOICE on an empty handle slot, on a handle, and on a stale one; REPEAT in its four outcomes. -/
theorem witness_LaneStartRunsTheLane_handles_and_repeat :
    ((running (block (.stop 1)) ready).lane 2).handles.get 1 = none
    ∧ (let s := (running (block (.waitVoice 1)) ready).setLane 2 (runningLane.setHandle 1 (some ⟨5, 7⟩))
       (s.lane 2).state = .running ∧ (s.lane 2).handles.get 1 = some ⟨5, 7⟩ ∧ s.handleKind ⟨5, 7⟩ = .stale)
    ∧ ((running (block (.repeatTo 10 255)) ready).lane 2).rep = none
    ∧ (running (block (.repeatTo 10 255)) ready).cues.get 10 = none
    ∧ (let x : Lane := { runningLane with rep := some ⟨8, 2⟩ }
       x.rep = some ⟨8, 2⟩ ∧ (1 < 2 ∧ (1 : Nat) ≤ 1) ∧ x.budget < 63)
    ∧ (7 : Fin 256) ≠ 8 := by decide +kernel

theorem witness_LanePauseResumeAbort :
    ready.takesRequests ∧ 3 < (4 : Byte).toNat ∧ 1 < (2 : Byte).toNat ∧ (2 : Byte).toNat = (2 : Fin 4).val
    ∧ (let s := oneLane starvedLane (block (.waitTime 100)) ready
       s.takesRequests ∧ (s.lane 2).state = .starved)
    ∧ (let s := oneLane (waitingLane (.time 1)) (block (.waitTime 1)) ready
       s.takesRequests ∧ (s.lane 2).state = .waiting ∧ (s.lane 2).wait = some (.time 1))
    ∧ (let s := oneLane pausedLane { block (.mark 5) with last := true } ready
       s.takesRequests ∧ (s.lane 2).state = .paused ∧ (s.lane 2).slot = some 8 ∧ (s.lane 2).pendingStart = none
       ∧ s.cues.get 8 = some { block (.mark 5) with last := true })
    ∧ (let s := oneLane { pausedLane with pendingStart := some ⟨9, 7, true⟩ } { block (.mark 5) with last := true } ready
       s.takesRequests ∧ (s.lane 2).state = .paused ∧ (s.lane 2).slot = some 8
       ∧ (s.lane 2).pendingStart = some ⟨9, 7, true⟩ ∧ s.cues.get 8 = some { block (.mark 5) with last := true }
       ∧ s.cues.get 7 = none)
    ∧ (let s := oneLane pausedLane (block (.waitTime 1)) ready
       (s.lane 2).state = .paused ∧ s.cues.get 8 = some (block (.waitTime 1)) ∧ s.cues.get (block (.waitTime 1)).link = none)
    ∧ (let s := oneLane faultedLane (block (.waitTime 1)) ready
       s.takesRequests ∧ (s.lane 2).state = .faulted ∧ (s.lane 2).state ≠ .paused)
    ∧ (let s := oneLane retryingLane playBlock clipped
       s.takesRequests ∧ (s.lane 2).state = .waiting ∧ (s.lane 2).wait = some (.start order) ∧ (s.lane 2).slot = some 8
       ∧ s.cues.get 8 = some playBlock)
    ∧ ((ready.lane 2).state = .idle ∧ (ready.lane 2).notice = none)
    ∧ (let s := oneLane quietLane (block (.waitTime 1)) ready
       (s.lane 2).state = .idle ∧ (s.lane 2).notice = some ⟨.runEnd, 1, 8⟩) := by decide +kernel

theorem witness_LanePauseResumeAbort_no_start_wait :
    (∀ o, (waitingLane (.time 1)).wait ≠ some (.start o)) ∧ ∀ t n, playBlock.op ≠ .repeatTo t n :=
  ⟨by intro o h; simp [waitingLane] at h, by intro t n h; simp [playBlock, block] at h⟩

theorem witness_StatusRecordsAnswerTheContext :
    ready.takesRequests ∧ 3 < (4 : Byte).toNat ∧ (3 : Byte).toNat = (3 : Fin 4).val
    ∧ (oneVoice (.playing sounding)).takesRequests ∧ (5 : Byte).toNat = (5 : Fin 16).val
    ∧ ((oneVoice (.cutting sounding ⟨32, .stopped, 6⟩ (some successor))).voice 5).body
      = .cutting sounding ⟨32, .stopped, 6⟩ (some successor) := by decide +kernel

theorem witness_AutostartTableStartsIdleLanes :
    ready.takesRequests ∧ 3 < (4 : Byte).toNat ∧ (3 : Byte).toNat = (3 : Fin 4).val
    ∧ (committing.takesRequests ∧ committing.commitInFlight = true) ∧ ready.commitInFlight = false
    ∧ ready.autostartDue = []
    ∧ (let s : State := { oneLane starvedLane (block (.waitTime 1)) ready with autostartDue := [(2, 8), (3, 1)] }
       s.autostartDue = (2, 8) :: [(3, 1)] ∧ (s.lane 2).state ≠ .idle)
    ∧ (let s : State := { ready with autostartDue := [(2, 8), (3, 1)] }
       s.autostartDue = (2, 8) :: [(3, 1)] ∧ (s.lane 2).state = .idle ∧ s.cues.get 8 = none)
    ∧ (let s : State := { ready.setCue 8 (some (block (.waitTime 65535))) with autostartDue := [(2, 8)] }
       s.autostartDue = (2, 8) :: [] ∧ (s.lane 2).state = .idle ∧ s.cues.get 8 = some (block (.waitTime 65535))) := by
  decide +kernel

theorem witness_SignalOrCodeEndsAWait :
    ready.signals = []
    ∧ ((signalled ready).signals = ⟨5, 7⟩ :: [⟨6, 1⟩] ∧ ∀ l : Fin 4, ((signalled ready).lane l).wait ≠ some (.voice ⟨5, 7⟩))
    ∧ (let b := block (.waitVoice 1)
       let s := signalled (oneLane (waitingLane (.voice ⟨5, 7⟩)) b ready)
       (s.lane 2).wait = some (.voice ⟨5, 7⟩) ∧ (∀ j : Fin 4, j ≠ 2 → (s.lane j).wait ≠ some (.voice ⟨5, 7⟩))
       ∧ (s.lane 2).slot = some 8 ∧ s.cues.get 8 = some b ∧ b.note = false ∧ b.pause = false ∧ b.last = false
       ∧ (s.lane 2).pauseRequested = false ∧ s.cues.get b.link = none)
    ∧ (let b := block (.waitCode code)
       let s := receiving (oneLane (waitingLane (.code code)) b ready)
       s.trg.rx = .collecting ∧ s.trg.reception ≠ .dropped ∧ s.trg.bytes = codeBytes code ++ [crcHigh]
       ∧ halfBytes (crc16 (codeBytes code)) = [crcHigh, crcLow] ∧ s.trg.filterList = [] ∧ s.trg.report ≠ .all
       ∧ (s.lane 2).wait = some (.code code) ∧ (∀ j : Fin 4, j ≠ 2 → (s.lane j).wait ≠ some (.code code))
       ∧ (∀ i : Fin 32, (s.binding i).enabled = true → (s.binding i).code ≠ code)
       ∧ (s.lane 2).slot = some 8 ∧ s.cues.get 8 = some b ∧ b.note = false ∧ b.pause = false ∧ b.last = false
       ∧ (s.lane 2).pauseRequested = false ∧ s.cues.get b.link = none) := by decide +kernel

/-- All four lanes wait on one handle, at a block with NOTE. -/
theorem witness_SignalOrCodeEndsAWait_four_lanes :
    let b : CueBlock := { block (.waitVoice 1) with note := true }
    let s : State := { signalled (ready.setCue 8 (some b)) with lanes := Table.const 4 (waitingLane (.voice ⟨5, 7⟩)) }
    s.signals = ⟨5, 7⟩ :: [⟨6, 1⟩]
    ∧ ∀ l : Fin 4, (s.lane l).wait = some (.voice ⟨5, 7⟩) ∧ (s.lane l).slot = some 8 ∧ s.cues.get 8 = some b
      ∧ b.note = true ∧ b.pause = false ∧ b.last = false ∧ (s.lane l).pauseRequested = false ∧ s.cues.get b.link = none := by
  decide +kernel

theorem witness_RetryRoundRetriesWaitingLanes :
    (ready.alc.offerDue = false ∧ ready.alc.retry = none)
    ∧ ((offered ready).alc.offerDue = true ∧ ∀ l : Fin 4, ((offered ready).lane l).state ≠ .waiting)
    ∧ (let s := offered (oneLane retryingLane playBlock clipped)
       s.alc.retry = none ∧ s.alc.offerDue = true ∧ (s.lane 2).state = .waiting ∧ (s.lane 2).wait = some (.start order)
       ∧ (∀ j : Fin 4, j ≠ 2 → (s.lane j).state ≠ .waiting)
       ∧ (s.lane 2).slot = some 8 ∧ s.cues.get 8 = some playBlock ∧ playBlock.op = .play ⟨1, order, .retry⟩
       ∧ playBlock.note = false ∧ playBlock.pause = false ∧ playBlock.last = false ∧ (s.lane 2).pauseRequested = false
       ∧ s.cues.get playBlock.link = none ∧ (s.clip order.clip).record = some clipA
       ∧ (∀ i : Fin 128, (s.sectors.get i).busy = false ∧ (s.sectors.get i).suspect = false)
       ∧ order.group = 0 ∧ (s.voice 0).body = .free ∧ (∀ w : Fin 16, ¬w < 0)
       ∧ s.openings.headD false = false ∧ ({ s with openings := [true] } : State).openings.headD false = true) := by
  decide +kernel

/-- A round whose retries all fail: one for an EMPTY clip and one for want of a voice. -/
theorem witness_RetryRoundRetriesWaitingLanes_all_fail :
    let s := (offered (oneLane retryingLane playBlock crowded)).setLane 3 (waitingLane (.start { order with clip := 60 }))
    s.alc.offerDue = true ∧ (∀ b ∈ s.openings, b = false) ∧ (s.lane 2).wait = some (.start order)
    ∧ (s.lane 3).wait = some (.start { order with clip := 60 })
    ∧ ∀ (l : Fin 4) o, (s.lane l).state = .waiting → (s.lane l).wait = some (.start o) → ∃ st, s.orderFails o st := by
  refine ⟨by decide +kernel, by decide +kernel, by decide +kernel, by decide +kernel, fun l o _ ho => ?_⟩
  rcases (show ∀ l : Fin 4, l = 0 ∨ l = 1 ∨ l = 2 ∨ l = 3 by decide) l with rfl | rfl | rfl | rfl
  · cases ho
  · cases ho
  · cases ho
    refine ⟨.noVoice, ⟨clipA, by decide +kernel, fun i _ => ?_⟩, Or.inl rfl,
      fun v => Or.inr ⟨{ sounding with priority := 5 }, ?_⟩⟩
    · revert i; decide +kernel
    · revert v; decide +kernel
  · cases ho
    refine ⟨.notDefined, ?_⟩
    show ((offered (oneLane retryingLane playBlock crowded)).clip 60).record = none
    decide +kernel

/-- A retry that stands: one that fails, and ones that succeed with the lane still in that wait, in a later one, and in none. -/
theorem witness_RetryRoundRetriesWaitingLanes_standing :
    ((asked true ready).alc.retry = some ⟨2, order, true⟩ ∧ (asked true ready).orderFails order .notDefined
      ∧ ∀ j : Fin 4, (2 : Fin 4) < j → ((asked true ready).lane j).state ≠ .waiting)
    ∧ (let s := asked true (oneLane retryingLane playBlock clipped)
       s.alc.retry = some ⟨2, order, true⟩ ∧ (s.clip order.clip).record = some clipA ∧ s.groupAlone order
       ∧ (s.voice 0).body = .free ∧ (s.lane 2).state = .waiting ∧ (s.lane 2).wait = some (.start order)
       ∧ (s.lane 2).slot = some 8 ∧ s.cues.get 8 = some playBlock ∧ s.cues.get playBlock.link = none)
    ∧ (asked false (oneLane retryingLane playBlock clipped)).alc.retry = some ⟨2, order, false⟩
    ∧ ((asked true (oneLane pausedLane playBlock clipped)).lane 2).state ≠ .waiting :=
  ⟨⟨rfl, show ((asked true ready).clip order.clip).record = none by decide +kernel, by decide +kernel⟩,
    ⟨rfl, by decide +kernel, Or.inl rfl, by decide +kernel, by decide +kernel, by decide +kernel, by decide +kernel,
      by decide +kernel, by decide +kernel⟩, rfl, by decide +kernel⟩

/-! The voices. -/

def ramped : OrderWire :=
  { orderWire with flags := 7, releaseRate := 3, releaseScale := 1, rampTarget := 5, rampRate := 6, rampScale := 3
                   rampMode := 2, rampNotify := 9 }

/-- The first bad field of a VOICE PLAY, as the statement has it. -/
def badOrderField (w : OrderWire) : Option Nat :=
  if 63 < w.clip.toNat then some 0
  else if 7 < w.priority.toNat then some 1
  else if 7 < w.group.toNat then some 2
  else if 4095 < w.level.toNat then some 5
  else if 15 < w.pan.toNat then some 7
  else if w.releaseRate ≠ 0 ∧ 3 < w.releaseScale.toNat then some 10
  else if w.flags.getLsbD 2 = true ∧ 4095 < w.rampTarget.toNat then some 12
  else if w.flags.getLsbD 2 = true ∧ w.rampRate = 0 then some 14
  else if w.flags.getLsbD 2 = true ∧ 3 < w.rampScale.toNat then some 15
  else if w.flags.getLsbD 2 = true ∧ 2 < w.rampMode.toNat then some 16
  else none

theorem witness_VoiceRequestsCheckTheirFields :
    [{ ramped with clip := 64 }, { ramped with priority := 8 }, { ramped with group := 8 }, { ramped with level := 4096 },
      { ramped with pan := 16 }, { ramped with releaseScale := 4 }, { ramped with rampTarget := 4096 },
      { ramped with rampRate := 0 }, { ramped with rampScale := 4 }, { ramped with rampMode := 3 }, ramped,
      orderWire].map badOrderField
      = [some 0, some 1, some 2, some 5, some 7, some 10, some 12, some 14, some 15, some 16, none, none]
    ∧ ready.takesRequests ∧ 15 < (16 : Byte).toNat ∧ (15 : Byte).toNat ≤ 15 ∧ 4095 < (4096 : Half).toNat
    ∧ (4095 : Half).toNat ≤ 4095 ∧ (1 : Byte) ≠ 0 ∧ 3 < (4 : Byte).toNat ∧ (3 : Byte).toNat ≤ 3 ∧ 2 < (3 : Byte).toNat := by
  decide +kernel

/-- The order of a request with a group, and one of the highest priority. -/
def grouped : OrderWire := { orderWire with group := 2 }
def backwardWire : OrderWire := { orderWire with clip := 4, flags := 3 }

theorem witness_VoicePlayFailures :
    orderOf orderWire = .ok order
    ∧ orderOf backwardWire = .ok { order with clip := 4, reverse := true }
    ∧ (ready.takesRequests ∧ (ready.clip order.clip).record = none)
    ∧ (clipped.takesRequests ∧ (clipped.clip 4).record = some clipB ∧ clipB.loopMode ≠ .none)
    ∧ (clipped.clip order.clip).record = some clipA ∧ order.reverse = false
    ∧ (∃ i : Fin 128, clipA.touches i = true ∧ ((marked ⟨true, 0, true, true⟩).sectors.get i).busy = true)
    ∧ (∃ i : Fin 128, clipA.touches i = true ∧ ((marked ⟨true, 0, false, true⟩).sectors.get i).suspect = true)
    ∧ (∀ i : Fin 128, ((marked ⟨true, 0, false, true⟩).sectors.get i).busy = false)
    ∧ order.group = 0
    ∧ (∀ v : Fin 16, ((allIn (.playing { sounding with priority := 5 })).voice v).stands
        = some { sounding with priority := 5 })
    ∧ order.priority ≤ 5
    ∧ (∀ v : Fin 16, ((allIn (.cutting sounding ⟨4, .stopped, 6⟩ (some successor))).voice v).body
        = .cutting sounding ⟨4, .stopped, 6⟩ (some successor))
    ∧ (∀ i : Fin 128, ((allIn (.playing sounding)).sectors.get i).busy = false
        ∧ ((allIn (.playing sounding)).sectors.get i).suspect = false) :=
  ⟨rfl, rfl, by decide +kernel, by decide +kernel, by decide +kernel, by decide +kernel, ⟨2, by decide +kernel⟩,
    ⟨2, by decide +kernel⟩, by decide +kernel, by decide +kernel, by decide +kernel, by decide +kernel, by decide +kernel,
    by decide +kernel⟩

/-- Every voice but V5 is in one state, and V5 in another. -/
def allBut (b c : VoiceBody) : State :=
  { clipped with voices := (Table.const 16 ⟨7, b⟩).set 5 ⟨7, c⟩, alc := ⟨allVoices.erase 5 ++ [5], false, none⟩ }

/-- No start of a group but 0 stands on a voice, and no successor awaits a cut there. -/
def noGroup (g : Fin 8) (x : Voice) : Bool :=
  (x.stands.all fun y => decide (y.group ≠ g)) && cutAll x.body fun _ _ z => z.all fun p => decide (p.order.group ≠ g)

theorem of_noGroup {g : Fin 8} {x : Voice} (h : noGroup g x = true) :
    (∀ y, x.stands = some y → y.group ≠ g) ∧ ∀ y c z, x.body = .cutting y c (some z) → z.order.group ≠ g := by
  have h' : (x.stands.all fun y => decide (y.group ≠ g)) = true
      ∧ cutAll x.body (fun _ _ z => z.all fun p => decide (p.order.group ≠ g)) = true := by
    simpa only [noGroup, Bool.and_eq_true] using h
  refine ⟨fun y e => of_decide_eq_true (of_all h'.1 y e), fun y c z e => ?_⟩
  have := of_cutAll h'.2 y c (some z) e
  exact of_decide_eq_true this

/-- No voice but V5 is CUTTING without a successor. -/
theorem no_cut {s : State} {v : Fin 16} (h : cutAll (s.voice v).body (fun _ _ z => z.isSome) = true) :
    ∀ a b, (s.voice v).body ≠ .cutting a b none := by
  intro a b e
  have := of_cutAll h a b none e
  simp at this

theorem witness_VoicePlayTakesAFreeOrCuttingVoice :
    clipped.takesRequests ∧ orderOf orderWire = .ok order ∧ orderOf grouped = .ok { order with group := 2 }
    ∧ ((clipped.clip order.clip).record = some clipA ∧ order.reverse = false ∧ clipA.loopMode = .none
      ∧ ∀ i : Fin 128, (clipped.sectors.get i).busy = false ∧ (clipped.sectors.get i).suspect = false)
    ∧ order.group = 0
    ∧ (∀ x : Fin 16, (∀ y, ((oneVoice (.playing sounding)).voice x).stands = some y → y.group ≠ 2)
      ∧ ∀ y c z, ((oneVoice (.playing sounding)).voice x).body = .cutting y c (some z) → z.order.group ≠ 2)
    ∧ (((allBut (.playing sounding) .free).voice 5).body = .free
      ∧ ∀ x : Fin 16, x < 5 → ((allBut (.playing sounding) .free).voice x).body ≠ .free)
    ∧ (let s := allBut (.playing sounding) (.cutting sounding ⟨7, .stopped, 7⟩ none)
       (∀ x : Fin 16, (s.voice x).body ≠ .free) ∧ (s.voice 5).body = .cutting sounding ⟨7, .stopped, 7⟩ none
       ∧ ∀ x : Fin 16, x < 5 → ∀ a b, (s.voice x).body ≠ .cutting a b none) := by
  refine ⟨by decide +kernel, rfl, rfl, by decide +kernel, rfl, fun x => of_noGroup ?_, by decide +kernel,
    by decide +kernel, by decide +kernel, fun x hx => no_cut ?_⟩
  · revert x; decide +kernel
  · revert x; decide +kernel

theorem witness_VoicePlaySteals :
    orderOf orderWire = .ok order ∧ order.group = 0 ∧ (2 : Fin 8) < order.priority
    ∧ (let s := allIn (.playing sounding)
       s.takesRequests ∧ (s.clip order.clip).record = some clipA ∧ s.ageLaw
       ∧ (∀ i : Fin 128, (s.sectors.get i).busy = false ∧ (s.sectors.get i).suspect = false)
       ∧ (∀ x : Fin 16, (s.voice x).body ≠ .free ∧ ∀ a b, (s.voice x).body ≠ .cutting a b none)
       ∧ (s.voice 0).body = .playing sounding ∧ (s.voice 0).stands = some sounding
       ∧ ∀ (x : Fin 16) z, x ≠ 0 → (s.voice x).stands = some z →
         sounding.priority < z.priority
         ∨ (sounding.priority = z.priority
           ∧ (((s.voice 0).isReleasing = true ∧ (s.voice x).isReleasing = false)
             ∨ ((s.voice 0).isReleasing = (s.voice x).isReleasing ∧ s.alc.age.idxOf 0 < s.alc.age.idxOf x))))
    ∧ (let low : Sounding := { sounding with priority := 1 }
       let s := allBut (.playing sounding) (.held low .releasing)
       s.ageLaw ∧ (s.voice 5).body = .held low .releasing ∧ (s.voice 5).stands = some low ∧ low.priority < order.priority
       ∧ (∀ x : Fin 16, x ≠ 5 → (s.voice x).stands = some sounding) ∧ low.priority < sounding.priority) := by
  refine ⟨rfl, rfl, by decide +kernel, ⟨by decide +kernel, by decide +kernel, ?_, by decide +kernel, fun x => ⟨?_, no_cut ?_⟩,
    by decide +kernel, by decide +kernel, fun x z hx hz => Or.inr ?_⟩, ?_, by decide +kernel, by decide +kernel,
    by decide +kernel, by decide +kernel, by decide +kernel⟩
  · unfold State.ageLaw; decide +kernel
  · revert x; decide +kernel
  · revert x; decide +kernel
  · have hs : ∀ x : Fin 16, ((allIn (.playing sounding)).voice x).stands = some sounding := by decide +kernel
    have : z = sounding := Option.some.inj (hz.symm.trans (hs x))
    subst this
    refine ⟨rfl, Or.inr ?_⟩
    revert x; decide +kernel
  · unfold State.ageLaw; decide +kernel

theorem witness_GroupRuleSupersedes :
    clipped.takesRequests ∧ orderOf grouped = .ok { order with group := 2 } ∧ (2 : Fin 8) ≠ 0
    ∧ (clipped.clip order.clip).record = some clipA
    ∧ (let s := oneVoice (.playing { sounding with group := 2 })
       (s.voice 0).body = .free ∧ (∀ z : Fin 16, ¬z < 0) ∧ (s.voice 5).body = .playing { sounding with group := 2 }
       ∧ ∀ z : Fin 16, z ≠ 5 → (∀ y, (s.voice z).stands = some y → y.group ≠ 2)
         ∧ ∀ y c p, (s.voice z).body = .cutting y c (some p) → p.order.group ≠ 2)
    ∧ (let s := allBut .free (.held { sounding with group := 2 } .releasing)
       (s.voice 5).body = .held { sounding with group := 2 } .releasing ∧ (s.voice 0).body = .free
       ∧ ∀ z : Fin 16, z ≠ 5 → (s.voice z).body = .free)
    ∧ (let s := oneVoice (.cutting sounding ⟨9, .stolen, 6⟩ (some successor))
       (s.voice 0).body = .free ∧ (s.voice 5).body = .cutting sounding ⟨9, .stolen, 6⟩ (some successor)
       ∧ successor.order.group = 2
       ∧ ∀ z : Fin 16, z ≠ 5 → (∀ y, (s.voice z).stands = some y → y.group ≠ 2)
         ∧ ∀ y c p, (s.voice z).body = .cutting y c (some p) → p.order.group ≠ 2) := by
  refine ⟨by decide +kernel, rfl, by decide +kernel, by decide +kernel,
    ⟨by decide +kernel, by decide +kernel, by decide +kernel, fun z hz => of_noGroup ?_⟩, by decide +kernel,
    by decide +kernel, by decide +kernel, rfl, fun z hz => of_noGroup ?_⟩
  · revert z; decide +kernel
  · revert z; decide +kernel

theorem witness_HandlesThatDoNotSound :
    (5 : Byte).toNat = (5 : Fin 16).val ∧ (oneVoice .free).takesRequests
    ∧ ((4095 : Half).toNat ≤ 4095 ∧ (1 : Byte) ≠ 0 ∧ (3 : Byte).toNat ≤ 3 ∧ (2 : Byte).toNat ≤ 2)
    ∧ ((oneVoice .free).voice 5).body = .free ∧ ((oneVoice (.playing sounding)).voice 5).generation ≠ 8
    ∧ (((oneVoice (.cutting sounding ⟨9, .stopped, 6⟩ none)).voice 5).body = .cutting sounding ⟨9, .stopped, 6⟩ none
      ∧ (6 : Byte) ≠ 7)
    ∧ (let s := oneVoice (.cutting sounding ⟨9, .stopped, 7⟩ none)
       (s.voice 5).body = .cutting sounding ⟨9, .stopped, 7⟩ none ∧ (s.voice 5).generation = 7)
    ∧ (let s := oneVoice (.cutting sounding ⟨9, .stolen, 6⟩ (some successor))
       (s.voice 5).body = .cutting sounding ⟨9, .stolen, 6⟩ (some successor) ∧ (s.voice 5).generation = 7) := by
  decide +kernel

theorem witness_OperationsOnASoundingHandle :
    (5 : Byte).toNat = (5 : Fin 16).val ∧ (oneVoice (.playing sounding)).takesRequests
    ∧ ((oneVoice (.playing sounding)).voice 5).generation = 7
    ∧ ((4095 : Half).toNat ≤ 4095 ∧ (1 : Byte) ≠ 0 ∧ Scale.x512.code = 3 ∧ RampMode.swing.code = 2)
    ∧ (sounding.release = none ∧ ((oneVoice (.playing sounding)).voice 5).body = .playing sounding)
    ∧ (let y := { sounding with release := some ⟨9, .x64⟩ }
       y.release = some ⟨9, .x64⟩ ∧ ((oneVoice (.held y .playing)).voice 5).body = .held y .playing)
    ∧ ((oneVoice (.releasing sounding)).voice 5).body = .releasing sounding
    ∧ ((oneVoice (.held sounding .releasing)).voice 5).body = .held sounding .releasing := by decide +kernel

/-! The frame, the output and the tick. -/

def ramping (mode : RampMode) (level sub : Nat) : Sounding :=
  { sounding with level, ramp := some ⟨mode, 100, 500, 50, .x8, sub, true⟩ }
def muted (m : MuteState) (pos : Nat) : State := { ready with out := { ready.out with mute := m, mutePos := pos } }

/-- The claim of voice 5's frame that is still to be taken. -/
def from5 (s : State) : State := { s with progress := { Progress.start with voices := 5 } }

theorem witness_InterpolationAndAdvance :
    (4095 < 4096 ∧ (-32768 : Int) ≤ 32767)
    ∧ (sounding.step ≤ 65535 ∧ sounding.loopMode = .none ∧ sounding.direction = .forward)
    ∧ ({ sounding with direction := .backward }).direction = .backward
    ∧ (let x : Sounding := { sounding with loopMode := .forward, pos := 2000 * 4096 + 4095, step := 65535 }
       clipB.loop = some ⟨1, 2000⟩ ∧ 1 < 2000 ∧ 2000 < clipB.count ∧ x.exit = false ∧ x.loops = 0 ∧ x.step ≤ 65535
       ∧ x.pos < (2000 + 1) * 4096 ∧ x.loopMode = .forward ∧ x.direction = .forward)
    ∧ (let x : Sounding := { sounding with loopMode := .alternate, direction := .backward, pos := 4096 }
       x.loopMode = .alternate ∧ 1 * 4096 ≤ x.pos ∧ x.exit = false ∧ x.loops = 0) := by decide +kernel

/-- The sample's choice, at each row of R4: clip B has its loop end below its last sample, and clip C at it. -/
def clipC : ClipRecord := { clipB with count := 2001, loopMode := .alternate }
def at' (d : Direction) (mode : LoopMode) (pos : Nat) : Sounding := { sounding with direction := d, loopMode := mode, pos }

theorem witness_InterpolationAndAdvance_sample :
    (let x := at' .forward .none (2999 * 4096 + 5)
     x.direction = .forward ∧ x.pos / 4096 + 1 = clipB.count)
    ∧ (let x := at' .forward .forward (2000 * 4096 + 4095)
       x.pos / 4096 + 1 ≠ clipB.count ∧ clipB.loop = some ⟨1, 2000⟩ ∧ x.pos / 4096 = 2000 ∧ x.pos / 4096 ≤ 2000
       ∧ x.exit = false ∧ x.loops ≠ 1 ∧ x.loopMode = .forward)
    ∧ (at' .forward .alternate (2000 * 4096)).loopMode = .alternate
    ∧ (let x : Sounding := { at' .forward .forward (2000 * 4096) with exit := true }
       x.pos / 4096 = 2000 ∧ ¬(x.pos / 4096 ≤ 2000 ∧ x.exit = false ∧ x.loops ≠ 1))
    ∧ (let x := at' .backward .alternate 0
       ¬x.direction = .forward ∧ x.pos % 4096 = 0 ∧ x.pos / 4096 = 0)
    ∧ (let x := at' .backward .alternate 7
       x.pos % 4096 ≠ 0 ∧ x.pos / 4096 + 1 = 1 ∧ clipB.loop = some ⟨1, 2000⟩)
    ∧ (let x := at' .backward .none 4097
       x.loopMode ≠ .alternate ∧ x.pos / 4096 + 1 ≠ 0)
    ∧ (clipA.format = .s8 ∧ ({ clipA with format := .u8 } : ClipRecord).format = .u8 ∧ clipB.format = .s16) := by
  decide +kernel

theorem witness_InterpolationAndAdvance_crossings :
    (let x : Sounding := { at' .forward .forward (2000 * 4096 + 4095) with step := 65535, loops := 2 }
     x.step ≤ 65535 ∧ x.loopMode ≠ .none ∧ clipB.loop = some ⟨1, 2000⟩ ∧ 1 < 2000 ∧ 2000 < clipB.count
     ∧ x.direction = .forward ∧ x.pos < (2000 + 1) * 4096)
    ∧ (2000 + 1) * 4096 ≤ (at' .forward .forward (2001 * 4096)).pos
    ∧ (let x := at' .backward .alternate 4096
       x.direction = .backward ∧ x.loopMode = .alternate ∧ 1 * 4096 ≤ x.pos)
    ∧ 2000 < clipC.count := by decide +kernel

/-- One start that sounds and reaches its clip's end, one whose ramp moves, and one whose mix passes the range of the output. -/
theorem witness_FrameWorksEveryVoice_ends_ramps_and_clips :
    (let x : Sounding := { sounding with pos := 99 * 4096 }
     let s := oneVoice (.playing x)
     (s.voice 5).body = .playing x ∧ (∀ w : Fin 16, w ≠ 5 → (s.voice w).body = .free)
     ∧ (s.clip x.clip).record = some clipA ∧ x.advance clipA = none)
    ∧ (let x := ramping .once 480 7
       (oneVoice (.releasing x)).power = true ∧ ((oneVoice (.releasing x)).voice 5).body = .releasing x
       ∧ x.ramp = some ⟨.once, 100, 500, 50, .x8, 7, true⟩ ∧ x.advance clipA = some { x with pos := 8192 })
    ∧ (match exec .frame (allIn (.playing { sounding with pos := 0, step := 1 })) with
        | .next t => some (decide (32767 < Int.tdiv (t.out.shown.busLeft * gain t.out.leftMaster) 65536), t.evq.tallies.get 10)
        | _ => none) = some (true, 1) := by decide +kernel

theorem witness_FrameWorksEveryVoice :
    (let s := oneVoice (.playing sounding)
     s.power = true ∧ s.progress.voices = 0 ∧ s.out.frameSub + 1 < 32
     ∧ (s.voice 0).body = .free ∧ (s.voice 5).body = .playing sounding ∧ (s.clip sounding.clip).record = some clipA
     ∧ sounding.advance clipA = some { sounding with pos := 8192 } ∧ sounding.ramp = none
     ∧ ({ sounding with pos := 99 * 4096 }).advance clipA = none)
    ∧ ((oneVoice (.held sounding .playing)).voice 5).body = .held sounding .playing
    ∧ (let s := oneVoice (.cutting sounding ⟨2, .stopped, 7⟩ none)
       (s.voice 5).body = .cutting sounding ⟨2, .stopped, 7⟩ none ∧ (s.clip sounding.clip).record = some clipA ∧ 1 < 2)
    ∧ (match exec (.cutComplete 5) (oneVoice (.cutting sounding ⟨1, .stopped, 7⟩ none)) with
        | .next t => some (t.progress.voices, (t.voice 5).body, t.out.frameSub)
        | _ => none) = some (6, .free, 0) := by
  decide +kernel

theorem witness_SilentFrame :
    (let s := muted .unmuting 255
     s.power = true ∧ s.progress.voices = 0 ∧ s.out.frameSub + 1 < 32 ∧ (∀ v : Fin 16, (s.voice v).body = .free)
     ∧ s.lnk.rx ≠ .collecting ∧ s.trg.rx ≠ .collecting)
    ∧ (muted .muting 1).out.mute = .muting ∧ (muted .muted 0).out.mutePos = 0 := by decide +kernel

/-- The 32nd frame, with a TIME wait and a store step that go on; and the state MS_TICK leaves, in which the tick has been taken. -/
theorem witness_SilentFrame_tick :
    (let s := tickNext (oneLane (waitingLane (.time 2)) (block (.waitTime 100)) (operating .erase 5 none 2 none))
     s.power = true ∧ s.progress.voices = 0 ∧ (∀ v : Fin 16, (s.voice v).body = .free) ∧ 32 ≤ s.out.frameSub + 1
     ∧ s.lnk.rx ≠ .collecting ∧ s.trg.rx ≠ .collecting ∧ (∀ l : Fin 4, (s.lane l).state ≠ .running)
     ∧ (∀ l : Fin 4, (s.lane l).notice = none ∧ ((s.lane l).wait = none ∨ (s.lane l).wait = some (.time 2)))
     ∧ (s.op.map fun r => r.limitLeft) = some 2)
    ∧ (match exec .msTick (tickNext (oneLane (waitingLane (.time 2)) (block (.waitTime 100)) ready)) with
        | .next t => some (t.progress.lanes, t.progress.store, t.progress.count, t.progress.voices, t.out.frameSub, t.out.msCount)
        | _ => none) = some (4, true, true, 0, 31, 1) := by decide +kernel

theorem witness_MixAndPins :
    (muted .unmuting 256).out.mutePos ≤ 256 ∧ ({ ready.out with mode := .mono }).mode = .mono
    ∧ (255 ≤ 255 ∧ ready.out.shown.dutyLeft ≤ 255 ∧ ready.out.shown.dutyRight ≤ 255 ∧ ready.out.shown.zone ≤ 15)
    ∧ (ready.out.mute = .muted ∧ ready.out.shown.blank = true)
    ∧ (match step { muted .muting 1 with pending := [.muteRampEnd] } with
        | .next t => some (t.out.mute, t.out.shown.blank)
        | _ => none) = some (.muted, true)
    ∧ (muted .unmuting 256).out.formed.blank = false := by decide +kernel

theorem witness_RampMoveInstantByMode :
    (let x := ramping .once 300 6
     let s := from5 (oneVoice (.playing x))
     s.power = true ∧ s.progress.voices = (5 : Fin 16).val ∧ (s.voice 5).body = .playing x
     ∧ (s.clip x.clip).record = some clipA ∧ x.advance clipA = some { x with pos := 8192 } ∧ x.ramp.isSome = true
     ∧ 6 + 1 < Scale.x8.frames)
    ∧ (let x := ramping .swing 500 7
       (from5 (oneVoice (.playing x))).progress.voices = 5 ∧ x.advance clipA = some { x with pos := 8192 }
       ∧ Scale.x8.frames ≤ 7 + 1 ∧ x.level = 500)
    ∧ (let x := ramping .once 480 7
       x.ramp = some ⟨.once, 100, 500, 50, .x8, 7, true⟩ ∧ x.level ≠ 500 ∧ min (x.level + 50) 500 = 500)
    ∧ (let x := ramping .cycle 300 7
       x.level ≠ 500 ∧ RampMode.cycle ≠ .once ∧ min (x.level + 50) 500 ≠ 500) := by decide +kernel

/-- A release ramp at its move instant that arrives, and a frame that only raises a ramp's sub-count. -/
theorem witness_RampMoveInstantByMode_releasing :
    (let x : Sounding := { sounding with level := 40, ramp := some ⟨.once, 100, 0, 50, .x1, 0, false⟩ }
     let s := from5 (oneVoice (.releasing x))
     s.power = true ∧ s.progress.voices = 5 ∧ (s.voice 5).body = .releasing x ∧ (s.clip x.clip).record = some clipA
     ∧ x.advance clipA = some { x with pos := 8192 } ∧ Scale.x1.frames ≤ 0 + 1
     ∧ (x.level ≠ 0 ∧ max (x.level - 50) 0 = 0))
    ∧ 6 + 1 < Scale.x8.frames := by decide +kernel

theorem witness_CutCompletes_early :
    let x : Sounding := { sounding with pos := 99 * 4096 }
    let s := from5 (oneVoice (.cutting x ⟨32, .stopped, 7⟩ none))
    s.progress.voices = 5 ∧ (s.voice 5).body = .cutting x ⟨32, .stopped, 7⟩ none
    ∧ (s.clip x.clip).record = some clipA ∧ x.advance clipA = none := by decide +kernel

theorem witness_CutCompletes :
    (let s := from5 (oneVoice (.cutting sounding ⟨1, .stopped, 7⟩ none))
     s.power = true ∧ s.progress.voices = (5 : Fin 16).val ∧ (s.clip sounding.clip).record = some clipA
     ∧ sounding.advance clipA = some { sounding with pos := 8192 }
     ∧ (s.voice 5).body = .cutting sounding ⟨1, .stopped, 7⟩ none)
    ∧ ((from5 (oneVoice (.cutting sounding ⟨2, .stopped, 7⟩ none))).voice 5).body
      = .cutting sounding ⟨2, .stopped, 7⟩ none
    ∧ (let s := from5 (oneVoice (.cutting sounding ⟨1, .stolen, 6⟩ (some successor)))
       s.power = true ∧ s.progress.voices = 5 ∧ (s.voice 5).body = .cutting sounding ⟨1, .stolen, 6⟩ (some successor)
       ∧ (s.clip successor.order.clip).record = some clipB) := by decide +kernel

/-- The pins run until MUTE_RAMP_END brings MUTED, are blank from there on, and run again in the first frame of an UNMUTE (R146). -/
theorem test_muteRampEnd_blanks_the_pins :
    (let s := muted .muting 1
     let s : State := { s with out := { s.out with shown := { s.out.shown with blank := false } } }
     match exec .muteRampEnd s with
      | .next t => match execAll [.frame, .outputSet 1 0 4095 4095 0 4, .frame] t with
        | .next u => some ((s.out.shown.pins 5).1, (t.out.shown.pins 5).1, t.out.mute, (u.out.shown.pins 5).1, u.out.mutePos)
        | _ => none
      | _ => none) = some (true, false, .muted, true, 1) := by decide +kernel

theorem witness_OutputSetAndTheMuteRamp :
    ready.takesRequests
    ∧ (1 < (2 : Byte).toNat ∧ ¬1 < (1 : Byte).toNat ∧ 4095 < (4096 : Half).toNat ∧ ¬4095 < (4095 : Half).toNat
      ∧ 15 < (16 : Byte).toNat ∧ ¬15 < (15 : Byte).toNat)
    ∧ (committing.takesRequests ∧ committing.commitInFlight = true) ∧ ready.commitInFlight = false
    ∧ ((muted .muting 1).power = true ∧ (muted .muting 1).progress.mute = false ∧ (muted .muting 1).out.mute = .muting)
    ∧ ((muted .unmuting 255).out.mute = .unmuting ∧ 255 ≤ (muted .unmuting 255).out.mutePos)
    ∧ ((muted .unmuting 254).out.mutePos < 255 ∧ (muted .muted 0).out.mute = .muted) := by decide +kernel

/-- A state one frame before a tick in which a lane waits, a lane holds a notice, a holdoff runs and a step is in progress. -/
def counting : State :=
  tickNext { (((bound .queue 5).setLane 1 (waitingLane (.time 2))).setLane 3
      { quietLane with notice := some ⟨.runEnd, 2, 8⟩ }) with
    op := (operating .erase 2 none 2 none).op }

theorem witness_TickCountsEverythingDown :
    ready.out.frameSub + 1 < 32
    ∧ counting.power = true ∧ counting.progress.count = false ∧ counting.progress.lanes = 0
    ∧ counting.progress.holdoffs = false ∧ counting.progress.store = false ∧ 32 ≤ counting.out.frameSub + 1
    ∧ (∀ l : Fin 4, (∀ t, (counting.lane l).wait = some (.time t) → 1 < t)
      ∧ ∀ n, (∀ t, (counting.lane l).wait ≠ some (.time t)) → (counting.lane l).notice = some n → 1 < n.msLeft)
    ∧ (∀ r, counting.op = some r → 1 < r.limitLeft) := by
  refine ⟨by decide +kernel, by decide +kernel, by decide +kernel, by decide +kernel, by decide +kernel,
    by decide +kernel, by decide +kernel, ?_, ?_⟩
  · have hw : ∀ l : Fin 4, (counting.lane l).wait = none ∨ (counting.lane l).wait = some (.time 2) := by decide +kernel
    have hn : ∀ l : Fin 4, ((counting.lane l).notice.all fun n => decide (1 < n.msLeft)) = true := by decide +kernel
    intro l
    refine ⟨fun t ht => ?_, fun n _ e => of_decide_eq_true (of_all (hn l) n e)⟩
    rcases hw l with h | h <;> rw [h] at ht
    · exact absurd ht (by simp)
    · simp only [Option.some.injEq, Wait.time.injEq] at ht
      omega
  · have h : (counting.op.all fun r => decide (1 < r.limitLeft)) = true := by decide +kernel
    exact fun r e => of_decide_eq_true (of_all h r e)

/-- The lanes before L2 have taken the tick. -/
def from2 (s : State) : State := tickNext { s with progress := { Progress.start with lanes := 2 } }

/-- L2's wait ends at the coming tick, toward a WAIT_TIME of 5 ms, and L3 behind it only counts down. -/
def behind (openings : List Bool) : State :=
  { from2 (((oneLane (waitingLane (.time 1)) (block (.waitTime 100)) ready).setCue 9 (some (block (.waitTime 5)))).setLane 3
      (waitingLane (.time 7))) with openings }

/-- A woken lane runs on before the lane behind it is taken, though the next free choice is to take another command (R83). -/
theorem test_woken_lane_runs_on_before_the_next :
    (match exec .msTick (behind [true]) with
      | .next t => some ((t.lane 2).wait, (t.lane 3).wait, t.openings)
      | _ => none) = some (some (.time 5), some (.time 6), [true]) := by decide +kernel

/-- A woken lane that a command has left RUNNING runs on before the 32nd frame takes the lane behind it (R83). -/
theorem test_woken_lane_left_running_runs_on_in_the_frame :
    (match exec (.waitTimeExpiry 2) (behind [true]) with
      | .next t => match exec .frame t with
        | .next u => some ((t.lane 2).state, (t.lane 3).wait, (u.lane 2).wait, (u.lane 3).wait)
        | _ => none
      | _ => none) = some (.running, some (.time 7), some (.time 5), some (.time 6)) := by decide +kernel

theorem witness_TickEndsWaitsNoticesAndHoldoffs :
    (let b := block (.waitTime 100)
     let s := from2 (oneLane (waitingLane (.time 1)) b ready)
     s.power = true ∧ s.out.frameSub = 31 ∧ s.progress.count = false ∧ s.nrst = false ∧ s.progress.lanes = (2 : Fin 4).val
     ∧ (s.lane 2).wait = some (.time 1) ∧ (s.lane 2).slot = some 8 ∧ s.cues.get 8 = some b ∧ b.note = false
     ∧ b.pause = false ∧ b.last = false ∧ (s.lane 2).pauseRequested = false ∧ s.cues.get b.link = none)
    ∧ (let s := behind [true]
       (∀ j : Fin 4, (s.lane j).state ≠ .running) ∧ s.progress.lanes = 2 ∧ (s.lane 2).wait = some (.time 1)
       ∧ s.cues.get 8 = some (block (.waitTime 100)) ∧ s.cues.get 9 = some (block (.waitTime 5))
       ∧ (s.lane 3).wait = some (.time 7))
    ∧ (let s := from2 (oneLane (waitingLane (.time 2)) (block (.waitTime 100)) ready)
       s.progress.lanes = 2 ∧ (s.lane 2).wait = some (.time 2))
    ∧ (let s := from2 (oneLane quietLane (block (.waitTime 100)) ready)
       s.progress.lanes = 2 ∧ (s.lane 2).wait = none ∧ (s.lane 2).notice = some ⟨.runEnd, 1, 8⟩
       ∧ (s.lane 3).wait = none ∧ (s.lane 3).notice = none)
    ∧ (from2 ready).progress.lanes = 2 ∧ ((from2 ready).lane 2).notice = none
    ∧ (let s := tickNext (bound .queue 1)
       s.power = true ∧ s.progress.holdoffs = false ∧ s.progress.count = false ∧ s.nrst = false
       ∧ (s.binding 9).holdoffLeft = 1 ∧ s.out.frameSub = 31)
    ∧ ((tickNext (bound .queue 2)).binding 9).holdoffLeft ≠ 1 ∧ (bound .queue 1).out.frameSub + 1 < 32 := by decide +kernel

theorem witness_GapCountsRunOut :
    (let s : State := { collecting [] none with lnk := { (collecting [] none).lnk with gap := 1 } }
     s.power = true ∧ s.progress.hostGap = false ∧ s.lnk.rx = .collecting ∧ s.lnk.reception = .idle ∧ s.lnk.gap ≤ 1)
    ∧ 1 < (collecting [] none).lnk.gap ∧ ready.lnk.rx ≠ .collecting
    ∧ (let s : State := { receiving ready with trg := { (receiving ready).trg with gap := 1 } }
       s.progress.trigGap = false ∧ s.trg.rx = .collecting ∧ s.trg.gap ≤ 1)
    ∧ 1 < (receiving ready).trg.gap ∧ ready.trg.rx ≠ .collecting
    ∧ ((inReception .begun (collecting [] none)).lnk.rx = .collecting
      ∧ (inReception .begun (collecting [] none)).lnk.reception ≠ .idle)
    ∧ ((inReception .begun (receiving ready)).trg.rx = .collecting
      ∧ (inReception .begun (receiving ready)).trg.reception ≠ .idle)
    ∧ ((receiving ready).power = true ∧ (receiving ready).progress.trigGap = false ∧ (receiving ready).out.frameSub + 1 < 32
      ∧ (receiving ready).trg.reception = .idle ∧ (collecting [] none).progress.hostGap = false)
    ∧ (match exec .hostGapTimeout { collecting [] none with lnk := { (collecting [] none).lnk with gap := 1 } } with
        | .next t => some (t.progress.hostGap, t.lnk.rx, t.out.frameSub)
        | _ => none) = some (true, .hunting, 0) := by decide +kernel

/-! The trigger line, the bindings and the events. -/

/-- The part listens for two codes, the test code among them or not. -/
def filtering (codes : List Code) (report : Report) : State :=
  receiving { ready with trg := { ready.trg.setFilter codes with report } }

theorem witness_TriggerFrameChecksAndReports :
    ((receiving ready).trg.rx = .collecting ∧ (receiving ready).trg.reception ≠ .dropped
      ∧ (receiving ready).trg.bytes = codeBytes code ++ [crcHigh])
    ∧ halfBytes (crc16 (codeBytes code)) = [crcHigh, crcLow] ∧ ¬halfBytes (crc16 (codeBytes code)) = [crcHigh, crcLow + 1]
    ∧ ((filtering [7] .all).trg.filterList ≠ []
      ∧ ∀ k : Fin 64, k.val = crcHigh.toNat / 4 → (filtering [7] .all).trg.filterTable.get k = false)
    ∧ (∃ k : Fin 64, k.val = crcHigh.toNat / 4 ∧ (filtering [7, code] .unbound).trg.filterTable.get k = true)
    ∧ ((filtering [7, code] .unbound).trg.report = .unbound ∧ (filtering [] .all).trg.filterList = [])
    ∧ ((∀ l : Fin 4, ((filtering [7, code] .unbound).lane l).wait ≠ some (.code code))
      ∧ ∀ i : Fin 32, ((filtering [7, code] .unbound).binding i).enabled = true
        → ((filtering [7, code] .unbound).binding i).code ≠ code) := by decide +kernel

theorem witness_BindingActsOnItsCode :
    (let s := receiving (bound .ignore 0)
     s.trg.rx = .collecting ∧ s.trg.reception ≠ .dropped ∧ s.trg.bytes = codeBytes code ++ [crcHigh]
     ∧ halfBytes (crc16 (codeBytes code)) = [crcHigh, crcLow] ∧ s.trg.filterList = [] ∧ s.trg.report = .nothing
     ∧ (∀ l : Fin 4, (s.lane l).wait ≠ some (.code code))
     ∧ (∀ j : Fin 32, (s.binding j).enabled = true ∧ (s.binding j).code = code ↔ j = 9)
     ∧ (s.binding 9).holdoffLeft = 0 ∧ (s.lane (s.binding 9).lane).state = .idle
     ∧ s.cues.get (s.binding 9).entry = none)
    ∧ 0 < ((receiving (bound .ignore 1)).binding 9).holdoffLeft
    ∧ (let s := receiving ((bound .queue 0).setLane 2 starvedLane)
       (s.binding 9).holdoffLeft = 0 ∧ (s.lane (s.binding 9).lane).state = .starved ∧ (s.binding 9).policy = .queue
       ∧ (s.lane (s.binding 9).lane).pendingStart = none)
    ∧ (let s := receiving ((bound .queue 0).setLane 2 { starvedLane with pendingStart := some ⟨1, 2, false⟩ })
       (s.lane (s.binding 9).lane).pendingStart.isSome = true)
    ∧ ((bound .ignore 0).binding 9).policy = .ignore := by decide +kernel

/-- Two bindings on the code, B9 and B20, on one lane or on two. -/
def twoBound (p : BusyPolicy) (lane : Fin 4) : State :=
  receiving ((bound .ignore 0).setBinding 20
    { enabled := true, code, lane, entry := 6, clear := false, policy := p, holdoff := 0, holdoffLeft := 0 })

theorem witness_BindingActsOnItsCode_restart_and_two_bindings :
    (let s := receiving ((bound .restart 0).setLane 2 pausedLane)
     (s.binding 9).policy = .restart ∧ (s.lane (s.binding 9).lane).state = .paused ∧ s.cues.get (s.binding 9).entry = none)
    ∧ (let s := twoBound .restart 2
       (∀ n : Fin 32, (s.binding n).enabled = true ∧ (s.binding n).code = code ↔ n = 9 ∨ n = 20) ∧ (9 : Fin 32) < 20
       ∧ (s.binding 9).holdoffLeft = 0 ∧ (s.binding 20).holdoffLeft = 0 ∧ (s.lane (s.binding 9).lane).state = .idle
       ∧ s.cues.get (s.binding 9).entry = none ∧ (s.binding 20).lane = (s.binding 9).lane
       ∧ (s.binding 20).policy = .restart ∧ s.cues.get (s.binding 20).entry = none)
    ∧ (twoBound .queue 2).trg.report = .nothing ∧ ((twoBound .ignore 2).binding 20).policy = .ignore
    ∧ (let s := twoBound .ignore 3
       (s.binding 20).lane ≠ (s.binding 9).lane ∧ (s.lane (s.binding 20).lane).state = .idle) := by decide +kernel

theorem witness_TriggerAndBindingRequests :
    ((inReception .begun ready).takesRequests ∧ (inReception .begun ready).trg.reception ≠ .idle)
    ∧ ready.takesRequests ∧ committing.takesRequests ∧ committing.commitInFlight = true ∧ ready.commitInFlight = false
    ∧ (([code] : List Code).length ≠ (2 : Byte).toNat ∧ (List.replicate 33 code).length = (33 : Byte).toNat
      ∧ 32 < (33 : Byte).toNat ∧ (List.replicate 32 code).length = (32 : Byte).toNat ∧ (32 : Byte).toNat ≤ 32)
    ∧ (2 < (3 : Byte).toNat ∧ (2 : Byte).toNat ≤ 2 ∧ TrigRate.b38400.code = 2 ∧ Report.all.code = 2)
    ∧ (31 < (32 : Byte).toNat ∧ (31 : Byte).toNat = (31 : Fin 32).val ∧ 3 < (4 : Byte).toNat ∧ (3 : Byte).toNat = (3 : Fin 4).val
      ∧ 2 < (3 : Byte).toNat ∧ BusyPolicy.queue.code = 2) := by decide +kernel

/-- The event queue with some records. -/
def events (n : Nat) : State :=
  { ready with evq := { ready.evq with queue := List.replicate n ⟨.mark, 0, 0, 0, 0, 0, 0⟩ } }

theorem witness_PostingAcceptsOrDrops :
    (events 63).evq.queue.length < 64 ∧ 64 ≤ (events 64).evq.queue.length ∧ ready.evq.queue = [] := by decide +kernel

theorem witness_EventReadAndTallyRead :
    ready.takesRequests ∧ 8 < (9 : Byte).toNat ∧ 1 ≤ (8 : Byte).toNat ∧ (8 : Byte).toNat ≤ 8 ∧ 1 < (2 : Byte).toNat := by
  decide +kernel

/-! The laws hold where a voice sounds, and the next step is a frame. -/

theorem witness_StepKeepsTheLaws :
    Memory.wf started.mem = true ∧ started.mem ≠ [] ∧ started.evq.bounded ∧ started.ageLaw ∧ started.alc.age = [0]
    ∧ started.trg.filterLaw ∧ started.busyLaw ∧ started.lanesLawful ∧ started.useLaw ∧ started.claims = [3]
    ∧ started.coldLaw ∧ ∃ t, step started = .next t := by
  refine ⟨by decide +kernel, by decide +kernel, ?_, ?_, by decide +kernel, ?_, ?_, ?_, ⟨by decide +kernel, by decide +kernel,
    by decide +kernel⟩, by decide +kernel, ?_, ⟨_, rfl⟩⟩
  · unfold Evq.bounded; decide +kernel
  · unfold State.ageLaw; decide +kernel
  · unfold Trg.filterLaw; decide +kernel
  · have h : ∀ i : Fin 128, (started.sectors.get i).busy = false := by decide +kernel
    have ho : started.op = none := by decide +kernel
    intro i
    simp [h i, ho]
  · unfold State.lanesLawful; decide +kernel
  · intro h
    exact absurd h (by decide +kernel)

/-- The laws of the store and of a part that has still to load are met with a step in progress, and by a part without power. -/
theorem witness_StepKeepsTheStoreInOrder_with_a_step :
    (operating .erase 2 none 50 none).busyLaw ∧ (result (exec .powerLoss started)).coldLaw
    ∧ (result (exec .powerLoss started)).power = false := by
  refine ⟨?_, fun _ => by decide +kernel, by decide +kernel⟩
  have ho : (operating .erase 2 none 50 none).op.map (fun r => r.sector) = some 2 := by decide +kernel
  have hb : ∀ i : Fin 128, ((operating .erase 2 none 50 none).sectors.get i).busy = decide (i = 2)
      ∧ ((operating .erase 2 none 50 none).sectors.get i).openMark = decide (i = 2) := by decide +kernel
  have key : ∀ i : Fin 128, (∃ r, (operating .erase 2 none 50 none).op = some r ∧ r.sector = i) ↔ i = 2 := by
    intro i
    obtain ⟨r, hr, h2⟩ := Option.map_eq_some_iff.mp ho
    constructor
    · rintro ⟨r', h', e⟩
      rw [hr] at h'
      cases h'
      exact e.symm.trans h2
    · rintro rfl
      exact ⟨r, hr, h2⟩
  intro i
  rw [key, (hb i).1, (hb i).2]
  simp

end Sys2Proof.Tests
end

section
/-! PROOFS. The resets: the values of State.reset block by block, the laws that hold there, and the warm and the cold reset
(R22, R23, R55, R97, R98, R115, R116, R135, R136, R148, R149, R158, R159, R170, R171). -/

namespace Sys2Proof.Machine

/-! ### The tables of State.reset -/

@[simp] theorem State.voice_reset (v : Fin 16) : State.reset.voice v = ⟨0, .free⟩ := Table.get_const ..

@[simp] theorem State.lane_reset (l : Fin 4) : State.reset.lane l = Lane.cold := Table.get_const ..

@[simp] theorem State.clip_reset (c : Fin 64) : State.reset.clip c = Clip.empty := Table.get_const ..

@[simp] theorem State.binding_reset (b : Fin 32) : State.reset.binding b = Binding.cold := Table.get_const ..

@[simp] theorem State.get_sectors_reset (i : Fin 128) : State.reset.sectors.get i = Sector.shipped := Table.get_const ..

@[simp] theorem State.get_tallies_reset (i : Fin 11) : State.reset.evq.tallies.get i = 0 := Table.get_const ..

/-- Settles O10, block by block: each table of State.reset holds one cold value everywhere. -/
theorem resetState : Obligations.ResetState := by
  unfold Obligations.ResetState
  refine ⟨State.voice_reset, rfl, State.lane_reset, rfl, rfl, fun b => ?_, fun c => ?_, fun i => ?_, rfl, rfl, rfl, rfl, rfl, rfl,
    rfl, rfl, rfl, rfl, rfl, rfl, State.get_tallies_reset, rfl, rfl, rfl, rfl, rfl, rfl⟩
  · rw [State.binding_reset]; rfl
  · rw [State.clip_reset]; rfl
  · rw [State.get_sectors_reset]; exact ⟨rfl, rfl⟩

/-! ### The laws at State.reset -/

theorem State.evq_bounded_reset : State.reset.evq.bounded :=
  ⟨Nat.zero_le _, Nat.zero_le _, fun i => by simp⟩

/-- With every voice FREE and no claim listed, the age list holds what it should (R52). -/
theorem State.ageLaw_reset : State.reset.ageLaw :=
  ⟨List.nodup_nil, fun v => by rw [State.voice_reset]; simp [State.reset, Voice.isFree]⟩

/-- No step is in progress and no sector is busy (R118, R128). -/
theorem State.busyLaw_reset : State.reset.busyLaw := by
  intro i
  have noStep : State.reset.op = none := rfl
  simp [noStep, Sector.shipped]

theorem State.lanesLawful_reset : State.reset.lanesLawful := fun l => by
  rw [State.lane_reset]
  decide

/-- A FREE voice holds no claim (R50). -/
theorem State.claims_of_all_free {s : State} (h : ∀ v : Fin 16, (s.voice v).body = .free) : s.claims = [] := by
  unfold State.claims
  rw [List.flatMap_eq_nil_iff]
  intro v _
  unfold Voice.claims
  rw [h v]

/-- With no claim every use count is 0, and no clip is in use (R120, R122). -/
theorem State.useLaw_reset : State.reset.useLaw := by
  have none_stands : State.reset.claims = [] := State.claims_of_all_free fun v => by rw [State.voice_reset]
  refine ⟨fun c => ?_, fun c => ?_, fun i => ?_⟩
  · rw [none_stands, State.clip_reset]; rfl
  · rw [State.clip_reset]; intro h; exact absurd h (Nat.lt_irrefl 0)
  · rw [none_stands, State.get_sectors_reset]; rfl

theorem State.coldLaw_reset : State.reset.coldLaw := fun _ =>
  ⟨fun v => by rw [State.voice_reset]; rfl, fun l => by rw [State.lane_reset]; exact ⟨rfl, rfl⟩, rfl, rfl, rfl, rfl, rfl⟩

/-- Settles O60: each law from the cold value of the table it speaks of. -/
theorem lawsHoldAtReset : Obligations.LawsHoldAtReset := by
  unfold Obligations.LawsHoldAtReset
  exact ⟨rfl, State.evq_bounded_reset, State.ageLaw_reset, rfl, State.busyLaw_reset, State.lanesLawful_reset,
    State.useLaw_reset, State.coldLaw_reset⟩

/-! ### The two resets -/

/-- The resets' request type has the reply type 0x82 (R165, R174). -/
theorem replyType_reset : replyType 0x02 = 0x82 := replyType_of_lt (by decide)

/-- The warm reset leaves the link alone, so it may be made before or after the reply is owed (R170). -/
theorem State.warmReset_oweReply (s : State) : s.oweReply.warmReset = s.warmReset.oweReply := rfl

/-- RESET with WARM: the reset, then its reply (R170). -/
theorem exec_resetWarm {s : State} (h : s.takesRequests) (tag : Byte) :
    exec (.resetWarm tag) s = .next (s.warmReset.replying tag 0x82 .ok []) := by
  have taken : s.request tag 0x02 doResetWarm = s.warmReset.replying tag (replyType 0x02) .ok [] := by
    rw [State.request_taken h]
    unfold doResetWarm
    dsimp only
    rw [State.warmReset_oweReply, State.sendReply_oweReply]
    rfl
  rw [replyType_reset] at taken
  exact congrArg Host.Outcome.next taken

/-- Settles O11: RESET with WARM is the warm reset, whose fields the statement writes out. -/
theorem warmResetAtEveryBlock : Obligations.WarmResetAtEveryBlock := by
  unfold Obligations.WarmResetAtEveryBlock
  intro tag s h
  rw [exec_resetWarm h]
  rfl

/-- RESET with COLD answers, and notes that the reset is to come (R170). -/
theorem exec_resetCold {s : State} (h : s.takesRequests) (tag : Byte) :
    exec (.resetCold tag) s = .next { s with lnk := { s.lnk with
      replyOwed := true, reply := some ⟨tag, 0x82, .ok, []⟩, after := .coldReset } } := by
  have taken : s.request tag 0x02 doResetCold = { s with lnk := { s.lnk with
      replyOwed := true, reply := some ⟨tag, replyType 0x02, .ok, []⟩, after := .coldReset } } := by
    rw [State.request_taken h]
    rfl
  rw [replyType_reset] at taken
  exact congrArg Host.Outcome.next taken

/-- The cold reset keeps no field of the link (R171). -/
theorem State.coldReset_lnk (s : State) (l : Lnk) : ({ s with lnk := l }).coldReset = s.coldReset := rfl

/-- The end of the reply to RESET COLD is the cold reset (R170). -/
theorem exec_replySent_coldReset {s : State} (ho : s.lnk.replyOwed = true) (ha : s.lnk.after = .coldReset) :
    exec .replySent s = .next s.coldReset := by
  have ends : s.replyEnds = s.coldReset := by
    unfold State.replyEnds
    rw [ha]
    exact State.coldReset_lnk ..
  show Host.Outcome.next (if s.lnk.replyOwed then s.replyEnds else s) = _
  rw [if_pos ho, ends]

/-- NRST asserted on a part with power is the cold reset with the pin held (R171). -/
theorem exec_nrstAssert {s : State} (hn : s.nrst = false) (hp : s.power = true) :
    exec .nrstAssert s = .next ({ s with nrst := true }).coldReset := by
  show Host.Outcome.next s.assertNrst = _
  unfold State.assertNrst
  rw [if_neg (by simp [hn]), if_pos hp]

/-- Settles O12: the reply's end and the pin come to the same cold reset. -/
theorem coldResetAtEveryBlock : Obligations.ColdResetAtEveryBlock := by
  unfold Obligations.ColdResetAtEveryBlock
  intro tag s
  refine ⟨fun h => exec_resetCold h tag, fun ho ha => ?_, fun hn hp => ?_, rfl⟩
  · rw [exec_replySent_coldReset ho ha]; rfl
  · rw [exec_nrstAssert hn hp]; rfl

end Sys2Proof.Machine
end

section
/-! PROOFS. The field checks of the voice requests, and the order that VOICE PLAY spells (R20, R21, R40). -/

namespace Sys2Proof.Machine

/-! ### Fields in range -/

theorem finOf_of_lt {n k : Nat} (h : k < n) : finOf n k = some ⟨k, h⟩ := dif_pos h

theorem finOf_of_le {n k : Nat} (h : n ≤ k) : finOf n k = none := dif_neg (by omega)

theorem byte_toNat_eq_zero {b : Byte} : b.toNat = 0 ↔ b = 0 := by
  constructor
  · intro h; exact BitVec.eq_of_toNat_eq h
  · rintro rfl; rfl

theorem yesNo_iff (b : Byte) : yesNo b = true ↔ b ≠ 0 := by simp [yesNo]

theorem Scale.ofCode_code (k : Scale) : Scale.ofCode k.code = some k := by cases k <;> rfl

theorem RampMode.ofCode_code (m : RampMode) : RampMode.ofCode m.code = some m := by cases m <;> rfl

theorem Scale.ofCode_of_gt {b : Byte} (h : 3 < b.toNat) : Scale.ofCode b = none := by
  unfold Scale.ofCode
  split <;> first | omega | rfl

theorem RampMode.ofCode_of_gt {b : Byte} (h : 2 < b.toNat) : RampMode.ofCode b = none := by
  unfold RampMode.ofCode
  split <;> first | omega | rfl

/-- Every byte up to 3 is the code of a scale (R27). -/
theorem Scale.exists_code {b : Byte} (h : b.toNat ≤ 3) : ∃ k : Scale, k.code = b := by
  have hb : b.toNat = 0 ∨ b.toNat = 1 ∨ b.toNat = 2 ∨ b.toNat = 3 := by omega
  rcases hb with e | e | e | e
  · exact ⟨.x1, (BitVec.eq_of_toNat_eq e).symm⟩
  · exact ⟨.x8, (BitVec.eq_of_toNat_eq e).symm⟩
  · exact ⟨.x64, (BitVec.eq_of_toNat_eq e).symm⟩
  · exact ⟨.x512, (BitVec.eq_of_toNat_eq e).symm⟩

/-- Every byte up to 2 is the code of a ramp mode (R27). -/
theorem RampMode.exists_code {b : Byte} (h : b.toNat ≤ 2) : ∃ m : RampMode, m.code = b := by
  have hb : b.toNat = 0 ∨ b.toNat = 1 ∨ b.toNat = 2 := by omega
  rcases hb with e | e | e
  · exact ⟨.once, (BitVec.eq_of_toNat_eq e).symm⟩
  · exact ⟨.cycle, (BitVec.eq_of_toNat_eq e).symm⟩
  · exact ⟨.swing, (BitVec.eq_of_toNat_eq e).symm⟩

/-! ### The ramp fields (R20, R40) -/

section

variable {target : Half} {rate scale mode : Byte} {notify : Bool} {offset : Nat}

theorem rampOf_bad_target (h : 4095 < target.toNat) : rampOf target rate scale mode notify offset = .error offset := if_pos h

theorem rampOf_bad_rate (ht : target.toNat ≤ 4095) (h : rate = 0) :
    rampOf target rate scale mode notify offset = .error (offset + 2) := by
  unfold rampOf
  rw [if_neg (by simp only [Config.maxLevel]; omega), if_pos (byte_toNat_eq_zero.2 h)]

theorem rampOf_bad_scale (ht : target.toNat ≤ 4095) (hr : rate ≠ 0) (h : 3 < scale.toNat) :
    rampOf target rate scale mode notify offset = .error (offset + 3) := by
  unfold rampOf
  rw [if_neg (by simp only [Config.maxLevel]; omega), if_neg (mt byte_toNat_eq_zero.1 hr), Scale.ofCode_of_gt h]

theorem rampOf_bad_mode (ht : target.toNat ≤ 4095) (hr : rate ≠ 0) (hs : scale.toNat ≤ 3) (h : 2 < mode.toNat) :
    rampOf target rate scale mode notify offset = .error (offset + 4) := by
  obtain ⟨k, rfl⟩ := Scale.exists_code hs
  unfold rampOf
  rw [if_neg (by simp only [Config.maxLevel]; omega), if_neg (mt byte_toNat_eq_zero.1 hr), Scale.ofCode_code,
    RampMode.ofCode_of_gt h]

theorem rampOf_good {k : Scale} {m : RampMode} (ht : target.toNat ≤ 4095) (hr : rate ≠ 0) (hs : k.code = scale)
    (hm : m.code = mode) :
    rampOf target rate scale mode notify offset = .ok ⟨target.toNat, rate.toNat, k, m, notify⟩ := by
  subst hs hm
  unfold rampOf
  rw [if_neg (by simp only [Config.maxLevel]; omega), if_neg (mt byte_toNat_eq_zero.1 hr), Scale.ofCode_code,
    RampMode.ofCode_code]

end

/-! ### The release fields (R40) -/

theorem releaseOf_zero {rate : Byte} (h : rate = 0) (scale : Byte) (offset : Nat) : releaseOf rate scale offset = .ok none :=
  if_pos (byte_toNat_eq_zero.2 h)

theorem releaseOf_bad_scale {rate scale : Byte} (hr : rate ≠ 0) (h : 3 < scale.toNat) (offset : Nat) :
    releaseOf rate scale offset = .error offset := by
  unfold releaseOf
  rw [if_neg (mt byte_toNat_eq_zero.1 hr), Scale.ofCode_of_gt h]

theorem releaseOf_good {rate : Byte} (hr : rate ≠ 0) (k : Scale) (offset : Nat) :
    releaseOf rate k.code offset = .ok (some ⟨rate.toNat, k⟩) := by
  unfold releaseOf
  rw [if_neg (mt byte_toNat_eq_zero.1 hr), Scale.ofCode_code]

/-! ### The start order of VOICE PLAY (R40) -/

/-- The index of the first field of VOICE PLAY that is out of its range (R40). -/
def firstBadField (w : OrderWire) : Option Nat :=
  if 63 < w.clip.toNat then some 0
  else if 7 < w.priority.toNat then some 1
  else if 7 < w.group.toNat then some 2
  else if 4095 < w.level.toNat then some 5
  else if 15 < w.pan.toNat then some 7
  else if w.releaseRate ≠ 0 ∧ 3 < w.releaseScale.toNat then some 10
  else if w.flags.getLsbD 2 = true ∧ 4095 < w.rampTarget.toNat then some 12
  else if w.flags.getLsbD 2 = true ∧ w.rampRate = 0 then some 14
  else if w.flags.getLsbD 2 = true ∧ 3 < w.rampScale.toNat then some 15
  else if w.flags.getLsbD 2 = true ∧ 2 < w.rampMode.toNat then some 16
  else none

/-- The release of an order holds the fields of its payload. -/
def GivesRelease (w : OrderWire) (release : Option Release) : Prop :=
  (w.releaseRate = 0 → release = none)
  ∧ (w.releaseRate ≠ 0 → ∃ k, release = some ⟨w.releaseRate.toNat, k⟩ ∧ k.code = w.releaseScale)

/-- The initial ramp of an order holds the fields of its payload. -/
def GivesRamp (w : OrderWire) (ramp : Option RampSpec) : Prop :=
  (¬w.flags.getLsbD 2 = true → ramp = none)
  ∧ (w.flags.getLsbD 2 = true → ∃ r, ramp = some r ∧ r.target = w.rampTarget.toNat ∧ r.rate = w.rampRate.toNat
      ∧ r.scale.code = w.rampScale ∧ r.mode.code = w.rampMode ∧ (r.notify = true ↔ w.rampNotify ≠ 0))

theorem releaseOf_gives {w : OrderWire} (h : ¬(w.releaseRate ≠ 0 ∧ 3 < w.releaseScale.toNat)) :
    ∃ release, releaseOf w.releaseRate w.releaseScale 10 = .ok release ∧ GivesRelease w release := by
  by_cases hr : w.releaseRate = 0
  · exact ⟨none, releaseOf_zero hr .., fun _ => rfl, fun hn => absurd hr hn⟩
  · obtain ⟨k, hk⟩ := Scale.exists_code (b := w.releaseScale) (by by_contra hc; exact h ⟨hr, by omega⟩)
    refine ⟨some ⟨w.releaseRate.toNat, k⟩, ?_, fun h0 => absurd h0 hr, fun _ => ⟨k, rfl, hk⟩⟩
    rw [← hk]
    exact releaseOf_good hr k 10

theorem initialRampOf_error {w : OrderWire} {i : Nat} (hr : w.flags.getLsbD 2 = true)
    (h : rampOf w.rampTarget w.rampRate w.rampScale w.rampMode (yesNo w.rampNotify) 12 = .error i) :
    initialRampOf w = .error i := by
  unfold initialRampOf
  rw [if_pos hr, h]
  rfl

theorem initialRampOf_gives {w : OrderWire}
    (h : w.flags.getLsbD 2 = true →
      w.rampTarget.toNat ≤ 4095 ∧ w.rampRate ≠ 0 ∧ w.rampScale.toNat ≤ 3 ∧ w.rampMode.toNat ≤ 2) :
    ∃ ramp, initialRampOf w = .ok ramp ∧ GivesRamp w ramp := by
  unfold initialRampOf
  by_cases hr : w.flags.getLsbD 2 = true
  · obtain ⟨ht, hrate, hs, hm⟩ := h hr
    obtain ⟨k, hk⟩ := Scale.exists_code hs
    obtain ⟨m, hm⟩ := RampMode.exists_code hm
    rw [if_pos hr, rampOf_good ht hrate hk hm]
    exact ⟨_, rfl, fun hn => absurd hr hn, fun _ => ⟨_, rfl, rfl, rfl, hk, hm, yesNo_iff _⟩⟩
  · rw [if_neg hr]
    exact ⟨none, rfl, fun _ => rfl, fun h => absurd h hr⟩

/-- The fields of VOICE PLAY before its release are in their ranges. -/
structure HeadInRange (w : OrderWire) : Prop where
  clip : w.clip.toNat < 64
  priority : w.priority.toNat < 8
  group : w.group.toNat < 8
  level : w.level.toNat ≤ 4095
  pan : w.pan.toNat < 16

/-- The order that a good payload spells, from its release and ramp. -/
def HeadInRange.order {w : OrderWire} (h : HeadInRange w) (release : Option Release)
    (ramp : Option RampSpec) : StartOrder :=
  { clip := ⟨w.clip.toNat, h.clip⟩, priority := ⟨w.priority.toNat, h.priority⟩, group := ⟨w.group.toNat, h.group⟩
    step := w.step.toNat, level := w.level.toNat, pan := ⟨w.pan.toNat, h.pan⟩, loopCount := w.loopCount.toNat
    release, reverse := w.flags.getLsbD 0, noteEnd := w.flags.getLsbD 1, ramp }

section

variable {w : OrderWire}

theorem orderOf_bad_clip (h : 63 < w.clip.toNat) : orderOf w = .error 0 := by
  unfold orderOf
  rw [finOf_of_le (by omega)]

theorem orderOf_bad_priority (hc : w.clip.toNat < 64) (h : 7 < w.priority.toNat) : orderOf w = .error 1 := by
  unfold orderOf
  rw [finOf_of_lt hc, finOf_of_le (n := 8) (k := w.priority.toNat) (by omega)]

theorem orderOf_bad_group (hc : w.clip.toNat < 64) (hp : w.priority.toNat < 8) (h : 7 < w.group.toNat) :
    orderOf w = .error 2 := by
  unfold orderOf
  rw [finOf_of_lt hc, finOf_of_lt hp, finOf_of_le (n := 8) (k := w.group.toNat) (by omega)]

theorem orderOf_bad_level (hc : w.clip.toNat < 64) (hp : w.priority.toNat < 8) (hg : w.group.toNat < 8)
    (h : 4095 < w.level.toNat) : orderOf w = .error 5 := by
  unfold orderOf
  rw [finOf_of_lt hc, finOf_of_lt hp, finOf_of_lt hg]
  dsimp only
  rw [if_pos (by simpa [Config.maxLevel] using h)]

theorem orderOf_bad_pan (hc : w.clip.toNat < 64) (hp : w.priority.toNat < 8) (hg : w.group.toNat < 8)
    (hl : w.level.toNat ≤ 4095) (h : 15 < w.pan.toNat) : orderOf w = .error 7 := by
  unfold orderOf
  rw [finOf_of_lt hc, finOf_of_lt hp, finOf_of_lt hg]
  dsimp only
  rw [if_neg (by simp only [Config.maxLevel]; omega),
    finOf_of_le (n := 16) (k := w.pan.toNat) (by omega)]

theorem orderOf_bad_release (h : HeadInRange w) {i : Nat} (hr : releaseOf w.releaseRate w.releaseScale 10 = .error i) :
    orderOf w = .error i := by
  have hl := h.level
  unfold orderOf
  rw [finOf_of_lt h.clip, finOf_of_lt h.priority, finOf_of_lt h.group]
  dsimp only
  rw [if_neg (by simp only [Config.maxLevel]; omega),
    finOf_of_lt h.pan, hr]

theorem orderOf_bad_ramp (h : HeadInRange w) {release : Option Release} {i : Nat}
    (hr : releaseOf w.releaseRate w.releaseScale 10 = .ok release) (hi : initialRampOf w = .error i) :
    orderOf w = .error i := by
  have hl := h.level
  unfold orderOf
  rw [finOf_of_lt h.clip, finOf_of_lt h.priority, finOf_of_lt h.group]
  dsimp only
  rw [if_neg (by simp only [Config.maxLevel]; omega),
    finOf_of_lt h.pan, hr, hi]

theorem orderOf_good (h : HeadInRange w) {release : Option Release} {ramp : Option RampSpec}
    (hr : releaseOf w.releaseRate w.releaseScale 10 = .ok release) (hi : initialRampOf w = .ok ramp) :
    orderOf w = .ok (h.order release ramp) := by
  have hl := h.level
  unfold orderOf
  rw [finOf_of_lt h.clip, finOf_of_lt h.priority, finOf_of_lt h.group]
  dsimp only
  rw [if_neg (by simp only [Config.maxLevel]; omega),
    finOf_of_lt h.pan, hr, hi]
  rfl

theorem le_of_not_and_lt {p : Prop} {a b : Nat} (hp : p) (h : ¬(p ∧ a < b)) : b ≤ a := not_lt.1 (not_and.1 h hp)

/-- The first bad field is the one answered (R40). -/
theorem orderOf_error_of_firstBadField {k : Nat} (h : firstBadField w = some k) : orderOf w = .error k := by
  unfold firstBadField at h
  split at h
  · next hb => cases h; exact orderOf_bad_clip hb
  split at h
  · next hb => cases h; exact orderOf_bad_priority (by omega) hb
  split at h
  · next hb => cases h; exact orderOf_bad_group (by omega) (by omega) hb
  split at h
  · next hb => cases h; exact orderOf_bad_level (by omega) (by omega) (by omega) hb
  split at h
  · next hb => cases h; exact orderOf_bad_pan (by omega) (by omega) (by omega) (by omega) hb
  have head : HeadInRange w := ⟨by omega, by omega, by omega, by omega, by omega⟩
  split at h
  · next hb => cases h; exact orderOf_bad_release head (releaseOf_bad_scale hb.1 hb.2 10)
  next hrel =>
  obtain ⟨release, hr, -⟩ := releaseOf_gives hrel
  refine orderOf_bad_ramp head hr ?_
  split at h
  · next hb => cases h; exact initialRampOf_error hb.1 (rampOf_bad_target hb.2)
  next ht =>
  split at h
  · next hb => cases h; exact initialRampOf_error hb.1 (rampOf_bad_rate (le_of_not_and_lt hb.1 ht) hb.2)
  next hrate =>
  split at h
  · next hb =>
    cases h
    exact initialRampOf_error hb.1
      (rampOf_bad_scale (le_of_not_and_lt hb.1 ht) (not_and.1 hrate hb.1) hb.2)
  next hscale =>
  split at h
  · next hb =>
    cases h
    exact initialRampOf_error hb.1
      (rampOf_bad_mode (le_of_not_and_lt hb.1 ht) (not_and.1 hrate hb.1) (le_of_not_and_lt hb.1 hscale) hb.2)
  · cases h

/-- With no bad field the order holds the fields of the payload (R40). -/
theorem orderOf_good_of_firstBadField (h : firstBadField w = none) :
    ∃ (head : HeadInRange w) (release : Option Release) (ramp : Option RampSpec),
      orderOf w = .ok (head.order release ramp) ∧ GivesRelease w release ∧ GivesRamp w ramp := by
  unfold firstBadField at h
  repeat (split at h; · cases h)
  next hrel ht hrate hscale hmode =>
  obtain ⟨release, hr, gives⟩ := releaseOf_gives hrel
  obtain ⟨ramp, hi, givesRamp⟩ := initialRampOf_gives fun hramped => ⟨le_of_not_and_lt hramped ht,
    not_and.1 hrate hramped, le_of_not_and_lt hramped hscale, le_of_not_and_lt hramped hmode⟩
  have head : HeadInRange w := ⟨by omega, by omega, by omega, by omega, by omega⟩
  exact ⟨head, release, ramp, orderOf_good head hr hi, gives, givesRamp⟩

end

/-! ### The requests' replies -/

/-- A request that its owner refuses for a field (R166). -/
theorem State.request_badField {s : State} (h : s.takesRequests) {type : Byte} (ht : type.toNat < 0x80) (tag : Byte)
    {f : State → Answer × State} {k : Nat} (hf : f s.oweReply = badField s.oweReply k) :
    Host.Outcome.next (ρ := Refusal) (φ := Fault) (s.request tag type f)
      = .next (s.replying tag (type + 0x80) .badField [BitVec.ofNat 8 k]) := by
  rw [State.request_unchanged h tag type f (Answer.badField k) hf, replyType_of_lt ht]
  rfl

/-- A request that its owner answers with a status alone. -/
theorem State.request_answers {s t : State} (h : s.takesRequests) {type : Byte} (ht : type.toNat < 0x80) (tag : Byte)
    {f : State → Answer × State} {st : Status} (hf : f s.oweReply = (Answer.only st, t.oweReply)) :
    Host.Outcome.next (ρ := Refusal) (φ := Fault) (s.request tag type f)
      = .next (t.replying tag (type + 0x80) st []) := by
  rw [State.request_taken h, hf]
  dsimp only
  rw [State.sendReply_oweReply, replyType_of_lt ht]
  rfl

theorem doVoicePlay_bad {w : OrderWire} {k : Nat} (h : firstBadField w = some k) (s : State) :
    doVoicePlay w s = badField s k := by
  unfold doVoicePlay
  rw [orderOf_error_of_firstBadField h]

theorem exec_voicePlay_bad {w : OrderWire} {k : Nat} (h : firstBadField w = some k) {s : State} (hs : s.takesRequests)
    (tag : Byte) : exec (.voicePlay tag w) s = .next (s.replying tag 0xB0 .badField [BitVec.ofNat 8 k]) :=
  State.request_badField hs (type := 0x30) (by decide) tag (doVoicePlay_bad h _)

section

variable {voice : Byte}

theorem onVoice_bad (h : 15 < voice.toNat) (g : Byte) (f : State → Handle → Status × State) (s : State) :
    onVoice voice g f s = badField s 0 := by
  unfold onVoice
  rw [finOf_of_le (by omega)]

theorem doVoiceRamp_bad_voice (h : 15 < voice.toNat) (g : Byte) (target : Half) (rate scale mode notify : Byte) (s : State) :
    doVoiceRamp voice g target rate scale mode notify s = badField s 0 := by
  unfold doVoiceRamp
  rw [finOf_of_le (by omega)]

theorem doVoiceStatus_bad (h : 15 < voice.toNat) (s : State) : doVoiceStatus voice s = badField s 0 := by
  unfold doVoiceStatus
  rw [finOf_of_le (by omega)]

theorem doVoiceRamp_bad_field (h : voice.toNat ≤ 15) {g : Byte} {target : Half} {rate scale mode notify : Byte} {i : Nat}
    (hr : rampOf target rate scale mode (yesNo notify) 2 = .error i) (s : State) :
    doVoiceRamp voice g target rate scale mode notify s = badField s i := by
  unfold doVoiceRamp
  rw [finOf_of_lt (by omega : voice.toNat < 16), hr]

theorem exec_voiceRamp_bad_field (h : voice.toNat ≤ 15) {g : Byte} {target : Half} {rate scale mode notify : Byte} {i : Nat}
    (hr : rampOf target rate scale mode (yesNo notify) 2 = .error i) {s : State} (hs : s.takesRequests) (tag : Byte) :
    exec (.voiceRamp tag voice g target rate scale mode notify) s
      = .next (s.replying tag 0xB1 .badField [BitVec.ofNat 8 i]) :=
  State.request_badField hs (type := 0x31) (by decide) tag (doVoiceRamp_bad_field h hr _)

end

/-- Settles O32: the checks of the order, of the voice number, and of the ramp fields. -/
theorem voiceRequestsCheckTheirFields : Obligations.VoiceRequestsCheckTheirFields := by
  unfold Obligations.VoiceRequestsCheckTheirFields
  refine ⟨fun tag w s hs => ⟨fun k hk => exec_voicePlay_bad hk hs tag, fun hbad => ?_⟩,
    fun tag voice g target rate scale mode notify s hs => ⟨fun hv => ?_, fun hv => ⟨fun ht => ?_, fun ht hr => ?_,
      fun ht hr hk => ?_, fun ht hr hk hm => ?_⟩⟩⟩
  · obtain ⟨head, release, ramp, ho, ⟨hr0, hr1⟩, hp0, hp1⟩ := orderOf_good_of_firstBadField hbad
    exact ⟨_, ho, rfl, rfl, rfl, rfl, rfl, rfl, rfl, Iff.rfl, Iff.rfl, hr0, hr1, hp0, hp1⟩
  · exact ⟨State.request_badField hs (type := 0x31) (by decide) tag (doVoiceRamp_bad_voice hv ..),
      State.request_badField hs (type := 0x32) (by decide) tag (onVoice_bad hv ..),
      State.request_badField hs (type := 0x33) (by decide) tag (onVoice_bad hv ..),
      State.request_badField hs (type := 0x34) (by decide) tag (onVoice_bad hv ..),
      State.request_badField hs (type := 0x35) (by decide) tag (onVoice_bad hv ..),
      State.request_badField hs (type := 0x36) (by decide) tag (doVoiceStatus_bad hv _)⟩
  · exact exec_voiceRamp_bad_field hv (rampOf_bad_target ht) hs tag
  · exact exec_voiceRamp_bad_field hv (rampOf_bad_rate ht hr) hs tag
  · exact exec_voiceRamp_bad_field hv (rampOf_bad_scale ht hr hk) hs tag
  · exact exec_voiceRamp_bad_field hv (rampOf_bad_mode ht hr hk hm) hs tag

end Sys2Proof.Machine
end

section
/-! PROOFS. How a start and a successor end, in the words of the statements (R13, R17, R19), and the five operations on a handle
by what the handle is (R14 to R19, R33, R34, R36). -/

namespace Sys2Proof.Machine

/-! ### Claims and the VOICE_END record -/

/-- The sector table after a change of a clip's claim (R50). -/
def State.claimSectors (s : State) (f : Nat → Nat) (c : Fin 64) : Table Sector 128 :=
  match (s.clip c).record with
  | none => s.sectors
  | some r => changeUse f r s.sectors

/-- A claim changed touches the clip and the sector table alone (R50). -/
theorem State.changeClaim_eq (s : State) (f : Nat → Nat) (c : Fin 64) :
    s.changeClaim f c = { s with
      clips := s.clips.set c { s.clip c with useCount := f (s.clip c).useCount }, sectors := s.claimSectors f c } := by
  unfold State.changeClaim State.claimSectors
  dsimp only
  cases (s.clip c).record <;> rfl

/-- The state with a claim released: the only fields that R13 step 2 touches. -/
theorem State.releaseClaim_eq (s : State) (c : Fin 64) :
    s.releaseClaim c = { s with
      clips := s.clips.set c { s.clip c with useCount := (s.clip c).useCount - 1 }
      sectors := s.claimSectors (· - 1) c } := State.changeClaim_eq ..

/-- A claim released, in the words of `State.claimedLess` (R13 step 2). -/
theorem State.claimedLess_releaseClaim (s : State) (c : Fin 64) : s.claimedLess (s.releaseClaim c) c := by
  unfold State.claimedLess
  refine ⟨by rw [State.releaseClaim_eq], fun i => ?_⟩
  unfold State.releaseClaim
  rw [State.get_sectors_changeClaim]
  cases (s.clip c).record <;> simp

/-- A record posted changes nothing but EVQ (R151, R152). -/
theorem State.post_eq (s : State) (k : EventKind) (n : Nat) (g r : Byte) (x : BitVec 32) :
    s.post k n g r x = { s with evq := (s.post k n g r x).evq } := by
  unfold State.post
  split <;> rfl

/-- What EVQ makes of a record depends on EVQ and the millisecond count alone. -/
theorem State.evq_post_congr {s t : State} (he : t.evq = s.evq) (ho : t.out.msCount = s.out.msCount) (k : EventKind) (n : Nat)
    (g r : Byte) (x : BitVec 32) : (t.post k n g r x).evq = (s.post k n g r x).evq := by
  unfold State.post State.accept State.dropRecord State.raise
  rw [he, ho]
  split <;> rfl

theorem State.noted_congr {s t : State} (he : t.evq = s.evq) (ho : t.out.msCount = s.out.msCount) (n : Bool) (v : Fin 16)
    (g r : Byte) (o : Owner) : t.noted n v g r o = s.noted n v g r o := by
  unfold State.noted
  rw [State.evq_post_congr he ho, he]

/-- The VOICE_END of a start with note end, in the words of `State.noted`. -/
theorem State.ite_post_eq_noted (s : State) (n : Bool) (v : Fin 16) (g r : Byte) (o : Owner) :
    (if n = true then s.post .voiceEnd v.val g r (eventValue o.code 0 0 0) else s)
      = { s with evq := s.noted n v g r o } := by
  unfold State.noted
  split
  · exact State.post_eq ..
  · rfl

theorem State.releaseClaim_evq (s : State) (e : Evq) (c : Fin 64) :
    ({ s with evq := e }).releaseClaim c = { s.releaseClaim c with evq := e } := by
  rw [State.releaseClaim_eq, State.releaseClaim_eq]
  rfl

/-! ### How a start ends (R13), and how a successor is cancelled (R19) -/

/-- Steps 1 to 3 of R13: VOICE_END, the claim released, and the signal where the start's handle is live. -/
theorem State.endStart_eq (s : State) (v : Fin 16) (x : Sounding) (g : Byte) (r : EndReason) :
    s.endStart v x g r = { s.releaseClaim x.clip with
      signals := if (s.voice v).namesSounding g then s.signals ++ [⟨v, g⟩] else s.signals
      evq := s.noted x.noteEnd v g r.code x.owner } := by
  unfold State.endStart
  rw [State.ite_post_eq_noted]
  dsimp only
  rw [State.releaseClaim_evq, State.releaseClaim_eq]
  change (if (s.voice v).namesSounding g = true then State.signal _ _ else _) = _
  by_cases live : (s.voice v).namesSounding g = true
  · rw [if_pos live, if_pos live]; rfl
  · rw [if_neg live, if_neg live]

/-- A sounding start that is not being cut ends (R13). -/
theorem State.endFree_eq {s : State} {v : Fin 16} (h : (s.voice v).stands.isSome = true) (x : Sounding) (r : EndReason) :
    s.endFree v x r = { s.releaseClaim x.clip with
      voices := s.voices.set v ⟨(s.voice v).generation, .free⟩
      alc := { s.alc with age := s.alc.age.erase v, offerDue := true }
      signals := s.signals ++ [⟨v, (s.voice v).generation⟩]
      evq := s.noted x.noteEnd v (s.voice v).generation r.code x.owner } := by
  have live : (s.voice v).namesSounding (s.voice v).generation = true := by
    unfold Voice.stands at h
    unfold Voice.namesSounding
    split <;> simp_all
  unfold State.endFree
  rw [State.endStart_eq, live, State.releaseClaim_eq]
  rfl

/-- A successor cancelled (R19). -/
theorem State.cancelSuccessor_eq {s : State} {v : Fin 16} {y : Sounding} {c : Cut} {z : Successor}
    (h : (s.voice v).body = .cutting y c (some z)) (r : EndReason) :
    s.cancelSuccessor v r = { s.releaseClaim z.order.clip with
      voices := s.voices.set v ⟨(s.voice v).generation, .cutting y c none⟩
      alc := { s.alc with offerDue := true }
      signals := s.signals ++ [⟨v, z.generation⟩]
      evq := s.noted z.order.noteEnd v z.generation r.code z.owner } := by
  unfold State.cancelSuccessor
  rw [h]
  dsimp only
  rw [State.ite_post_eq_noted, State.releaseClaim_eq, State.releaseClaim_eq]
  rfl

/-! ### The operations do not touch the link -/

theorem State.noted_oweReply (s : State) (n : Bool) (v : Fin 16) (g r : Byte) (o : Owner) :
    s.oweReply.noted n v g r o = s.noted n v g r o := State.noted_congr (s := s) (t := s.oweReply) rfl rfl ..

theorem State.endFree_oweReply {s : State} {v : Fin 16} (h : (s.voice v).stands.isSome = true) (x : Sounding) (r : EndReason) :
    s.oweReply.endFree v x r = (s.endFree v x r).oweReply := by
  rw [State.endFree_eq h, State.endFree_eq (s := s.oweReply) h, State.releaseClaim_eq, State.releaseClaim_eq,
    State.noted_oweReply]
  rfl

theorem State.stopStart_oweReply (s : State) (v : Fin 16) (r : CutReason) :
    s.oweReply.stopStart v r = (s.stopStart v r).oweReply := by
  unfold State.stopStart
  rw [State.voice_oweReply]
  dsimp only
  cases h : (s.voice v).body with
  | held y w => exact State.endFree_oweReply (by simp [Voice.stands, h]) ..
  | _ => rfl

theorem State.cancelSuccessor_oweReply (s : State) (v : Fin 16) (r : EndReason) :
    s.oweReply.cancelSuccessor v r = (s.cancelSuccessor v r).oweReply := by
  cases h : (s.voice v).body with
  | cutting y c z =>
    cases z with
    | none =>
      unfold State.cancelSuccessor
      rw [State.voice_oweReply, h]
    | some z =>
      rw [State.cancelSuccessor_eq h, State.cancelSuccessor_eq (s := s.oweReply) h, State.releaseClaim_eq,
        State.releaseClaim_eq, State.noted_oweReply]
      rfl
  | _ =>
    unfold State.cancelSuccessor
    rw [State.voice_oweReply, h]

/-! ### What a handle is (R14) -/

section

variable {s : State} {v : Fin 16} {g : Byte}

theorem State.handleKind_stale
    (h : (s.voice v).body = .free ∨ (s.voice v).generation ≠ g
      ∨ ∃ y c, (s.voice v).body = .cutting y c none ∧ c.generation ≠ g) : s.handleKind ⟨v, g⟩ = .stale := by
  unfold State.handleKind
  dsimp only
  rcases h with h | h | ⟨y, c, h, hc⟩
  · rw [h]
  · split <;> simp [Ne.symm h]
  · rw [h]
    simp [Ne.symm hc]

theorem State.handleKind_beingCut {y : Sounding} {c : Cut} (h : (s.voice v).body = .cutting y c none)
    (hg : (s.voice v).generation = g) (hc : c.generation = g) : s.handleKind ⟨v, g⟩ = .beingCut := by
  unfold State.handleKind
  simp [h, hg, hc]

theorem State.handleKind_awaiting {y : Sounding} {c : Cut} {z : Successor} (h : (s.voice v).body = .cutting y c (some z))
    (hg : (s.voice v).generation = g) : s.handleKind ⟨v, g⟩ = .awaiting := by
  unfold State.handleKind
  simp [h, hg]

/-- A voice in PLAYING, RELEASING or HELD: the handle of its start sounds. -/
theorem State.handleKind_sounding (h : (s.voice v).stands.isSome = true) (hg : (s.voice v).generation = g) :
    s.handleKind ⟨v, g⟩ = .sounding := by
  unfold Voice.stands at h
  unfold State.handleKind
  dsimp only
  split at h <;> simp_all

/-! ### The operations on a handle that does not sound (R15 to R19) -/

theorem State.operations_stale {h : Handle} (hk : s.handleKind h = .stale) :
    (∀ r, s.opRamp h r = (.stale, s)) ∧ s.opRelease h = (.stale, s) ∧ s.opStop h = (.stale, s)
    ∧ s.opHold h = (.stale, s) ∧ s.opContinue h = (.stale, s) := by
  simp [State.opRamp, State.opRelease, State.opStop, State.opHold, State.opContinue, hk]

theorem State.operations_beingCut {h : Handle} (hk : s.handleKind h = .beingCut) :
    (∀ r, s.opRamp h r = (.notApplied, s)) ∧ s.opRelease h = (.notApplied, s) ∧ s.opStop h = (.ok, s)
    ∧ s.opHold h = (.wrongState, s) ∧ s.opContinue h = (.wrongState, s) := by
  simp [State.opRamp, State.opRelease, State.opStop, State.opHold, State.opContinue, hk]

/-- RELEASE and STOP cancel a successor (R19). -/
theorem State.operations_awaiting {h : Handle} (hk : s.handleKind h = .awaiting) :
    (∀ r, s.opRamp h r = (.notApplied, s)) ∧ s.opRelease h = (.ok, s.cancelSuccessor h.voice .cancelled)
    ∧ s.opStop h = (.ok, s.cancelSuccessor h.voice .cancelled)
    ∧ s.opHold h = (.wrongState, s) ∧ s.opContinue h = (.wrongState, s) := by
  simp [State.opRamp, State.opRelease, State.opStop, State.opHold, State.opContinue, hk]

/-! ### The operations on a sounding start (R15 to R18) -/

theorem State.opRamp_playing {y : Sounding} (hb : (s.voice v).body = .playing y) (hg : (s.voice v).generation = g)
    (r : RampSpec) :
    s.opRamp ⟨v, g⟩ r = (.ok, s.setBody v (.playing { y with ramp := some (r.set y.level) })) := by
  unfold State.opRamp
  rw [State.handleKind_sounding (by simp [Voice.stands, hb]) hg]
  dsimp only
  rw [hb]

theorem State.opRamp_heldPlaying {y : Sounding} (hb : (s.voice v).body = .held y .playing) (hg : (s.voice v).generation = g)
    (r : RampSpec) :
    s.opRamp ⟨v, g⟩ r = (.ok, s.setBody v (.held { y with ramp := some (r.set y.level) } .playing)) := by
  unfold State.opRamp
  rw [State.handleKind_sounding (by simp [Voice.stands, hb]) hg]
  dsimp only
  rw [hb]

/-- A start that is releasing takes no ramp (R15) and no second release (R16). -/
theorem State.operations_releasing {y : Sounding}
    (hb : (s.voice v).body = .releasing y ∨ (s.voice v).body = .held y .releasing) (hg : (s.voice v).generation = g) :
    (∀ r, s.opRamp ⟨v, g⟩ r = (.notApplied, s)) ∧ s.opRelease ⟨v, g⟩ = (.ok, s) := by
  have hk : s.handleKind ⟨v, g⟩ = .sounding :=
    State.handleKind_sounding (by rcases hb with hb | hb <;> simp [Voice.stands, hb]) hg
  unfold State.opRamp State.opRelease
  rcases hb with hb | hb <;> simp [hk, hb]

/-- A start with no release leaves its loop and plays on (R16). -/
theorem State.opRelease_playing_freed {y : Sounding} (hb : (s.voice v).body = .playing y)
    (hg : (s.voice v).generation = g) (hr : y.release = none) :
    s.opRelease ⟨v, g⟩ = (.ok, s.setBody v (.playing { y with exit := true })) := by
  unfold State.opRelease
  rw [State.handleKind_sounding (by simp [Voice.stands, hb]) hg]
  dsimp only
  rw [hb]
  dsimp only
  rw [hr]

/-- A start with a release fades by it (R16, R34). -/
theorem State.opRelease_playing_fades {y : Sounding} {k : Release} (hb : (s.voice v).body = .playing y)
    (hg : (s.voice v).generation = g) (hr : y.release = some k) :
    s.opRelease ⟨v, g⟩ = (.ok, s.setBody v (.releasing (y.released k))) := by
  unfold State.opRelease
  rw [State.handleKind_sounding (by simp [Voice.stands, hb]) hg]
  dsimp only
  rw [hb]
  dsimp only
  rw [hr]

theorem State.opRelease_heldPlaying_freed {y : Sounding} (hb : (s.voice v).body = .held y .playing)
    (hg : (s.voice v).generation = g) (hr : y.release = none) :
    s.opRelease ⟨v, g⟩ = (.ok, s.setBody v (.held { y with exit := true } .playing)) := by
  unfold State.opRelease
  rw [State.handleKind_sounding (by simp [Voice.stands, hb]) hg]
  dsimp only
  rw [hb]
  dsimp only
  rw [hr]

theorem State.opRelease_heldPlaying_fades {y : Sounding} {k : Release} (hb : (s.voice v).body = .held y .playing)
    (hg : (s.voice v).generation = g) (hr : y.release = some k) :
    s.opRelease ⟨v, g⟩ = (.ok, s.setBody v (.held (y.released k) .releasing)) := by
  unfold State.opRelease
  rw [State.handleKind_sounding (by simp [Voice.stands, hb]) hg]
  dsimp only
  rw [hb]
  dsimp only
  rw [hr]

/-- STOP on a start that moves begins its cut; it cannot CONTINUE (R17, R18). -/
theorem State.operations_moving {y : Sounding} (hb : (s.voice v).body = .playing y ∨ (s.voice v).body = .releasing y)
    (hg : (s.voice v).generation = g) :
    s.opStop ⟨v, g⟩ = (.ok, s.setBody v (.cutting y ⟨32, .stopped, g⟩ none))
    ∧ s.opContinue ⟨v, g⟩ = (.wrongState, s) := by
  have hk : s.handleKind ⟨v, g⟩ = .sounding :=
    State.handleKind_sounding (by rcases hb with hb | hb <;> simp [Voice.stands, hb]) hg
  unfold State.opStop State.opContinue State.stopStart
  rcases hb with hb | hb <;> simp [hk, hb, hg, Config.cutFrames]

theorem State.opHold_playing {y : Sounding} (hb : (s.voice v).body = .playing y) (hg : (s.voice v).generation = g) :
    s.opHold ⟨v, g⟩ = (.ok, s.setBody v (.held y .playing)) := by
  unfold State.opHold
  rw [State.handleKind_sounding (by simp [Voice.stands, hb]) hg]
  dsimp only
  rw [hb]

theorem State.opHold_releasing {y : Sounding} (hb : (s.voice v).body = .releasing y) (hg : (s.voice v).generation = g) :
    s.opHold ⟨v, g⟩ = (.ok, s.setBody v (.held y .releasing)) := by
  unfold State.opHold
  rw [State.handleKind_sounding (by simp [Voice.stands, hb]) hg]
  dsimp only
  rw [hb]

/-- The body that CONTINUE returns a held start to (R18). -/
def HeldFrom.goesOn : HeldFrom → Sounding → VoiceBody
  | .playing => .playing
  | .releasing => .releasing

/-- A held start: HOLD again is no change, CONTINUE returns it, and STOP ends it at once (R17, R18). -/
theorem State.operations_held {y : Sounding} {w : HeldFrom} (hb : (s.voice v).body = .held y w)
    (hg : (s.voice v).generation = g) :
    s.opHold ⟨v, g⟩ = (.ok, s)
    ∧ s.opContinue ⟨v, g⟩ = (.ok, s.setBody v (w.goesOn y))
    ∧ s.opStop ⟨v, g⟩ = (.ok, s.endFree v y .stopped) := by
  have hk : s.handleKind ⟨v, g⟩ = .sounding := State.handleKind_sounding (by simp [Voice.stands, hb]) hg
  unfold State.opHold State.opContinue State.opStop State.stopStart
  cases w <;> simp [hk, hb, CutReason.endReason, HeldFrom.goesOn]

end

/-! ### The requests' replies -/

/-- An operation on a handle acts alike before and after the reply is owed. -/
def IgnoresReply (f : State → Handle → Status × State) : Prop :=
  ∀ s h, f s.oweReply h = ((f s h).1, (f s h).2.oweReply)

theorem State.handleKind_oweReply (s : State) (h : Handle) : s.oweReply.handleKind h = s.handleKind h := rfl

theorem State.opRamp_ignoresReply (r : RampSpec) : IgnoresReply fun s h => s.opRamp h r := by
  intro s h
  dsimp only
  unfold State.opRamp
  rw [State.handleKind_oweReply, State.voice_oweReply]
  cases s.handleKind h with
  | sounding => dsimp only; split <;> rfl
  | _ => rfl

theorem State.opRelease_ignoresReply : IgnoresReply State.opRelease := by
  intro s h
  unfold State.opRelease
  rw [State.handleKind_oweReply, State.voice_oweReply]
  cases s.handleKind h with
  | sounding =>
    dsimp only
    split
    · split <;> rfl
    · split <;> rfl
    · rfl
  | awaiting => exact congrArg (Prod.mk _) (State.cancelSuccessor_oweReply ..)
  | _ => rfl

theorem State.opStop_ignoresReply : IgnoresReply State.opStop := by
  intro s h
  unfold State.opStop
  rw [State.handleKind_oweReply]
  cases s.handleKind h with
  | sounding => exact congrArg (Prod.mk _) (State.stopStart_oweReply ..)
  | awaiting => exact congrArg (Prod.mk _) (State.cancelSuccessor_oweReply ..)
  | _ => rfl

theorem State.opHold_ignoresReply : IgnoresReply State.opHold := by
  intro s h
  unfold State.opHold
  rw [State.handleKind_oweReply, State.voice_oweReply]
  cases s.handleKind h with
  | sounding => dsimp only; split <;> rfl
  | _ => rfl

theorem State.opContinue_ignoresReply : IgnoresReply State.opContinue := by
  intro s h
  unfold State.opContinue
  rw [State.handleKind_oweReply, State.voice_oweReply]
  cases s.handleKind h with
  | sounding => dsimp only; split <;> rfl
  | _ => rfl

section

variable {s : State} {voice g : Byte} {v : Fin 16}

/-- An operation that answers with a status, as a request on a handle of voice `v` (R20). -/
theorem State.request_onVoice (hs : s.takesRequests) (hv : voice.toNat = v.val) {f : State → Handle → Status × State}
    (hf : IgnoresReply f) {type : Byte} (ht : type.toNat < 0x80) (tag : Byte) {st : Status} {t : State}
    (h : f s ⟨v, g⟩ = (st, t)) :
    Host.Outcome.next (ρ := Refusal) (φ := Fault) (s.request tag type (onVoice voice g f))
      = .next (t.replying tag (type + 0x80) st []) := by
  refine State.request_answers hs ht tag ?_
  unfold onVoice
  rw [finOf_of_lt (by omega : voice.toNat < 16), show (⟨voice.toNat, _⟩ : Fin 16) = v from Fin.ext hv]
  dsimp only
  rw [hf, h]

/-- VOICE RAMP with its fields in range is RAMP on the handle (R15, R20). -/
theorem doVoiceRamp_good {target : Half} {rate scale mode notify : Byte} {r : RampSpec}
    (hr : rampOf target rate scale mode (yesNo notify) 2 = .ok r) :
    doVoiceRamp voice g target rate scale mode notify = onVoice voice g fun s h => s.opRamp h r := by
  funext s
  unfold doVoiceRamp onVoice
  rw [hr]

theorem exec_voiceRamp (hs : s.takesRequests) (hv : voice.toNat = v.val) {target : Half} {rate scale mode notify : Byte}
    {r : RampSpec} (hr : rampOf target rate scale mode (yesNo notify) 2 = .ok r) (tag : Byte) {st : Status} {t : State}
    (h : s.opRamp ⟨v, g⟩ r = (st, t)) :
    exec (.voiceRamp tag voice g target rate scale mode notify) s = .next (t.replying tag 0xB1 st []) := by
  show Host.Outcome.next (s.request tag 0x31 (doVoiceRamp voice g target rate scale mode notify)) = _
  rw [doVoiceRamp_good hr]
  exact State.request_onVoice hs hv (State.opRamp_ignoresReply r) (by decide) tag h

theorem exec_voiceRelease (hs : s.takesRequests) (hv : voice.toNat = v.val) (tag : Byte) {st : Status} {t : State}
    (h : s.opRelease ⟨v, g⟩ = (st, t)) : exec (.voiceRelease tag voice g) s = .next (t.replying tag 0xB2 st []) :=
  State.request_onVoice hs hv State.opRelease_ignoresReply (type := 0x32) (by decide) tag h

theorem exec_voiceStop (hs : s.takesRequests) (hv : voice.toNat = v.val) (tag : Byte) {st : Status} {t : State}
    (h : s.opStop ⟨v, g⟩ = (st, t)) : exec (.voiceStop tag voice g) s = .next (t.replying tag 0xB3 st []) :=
  State.request_onVoice hs hv State.opStop_ignoresReply (type := 0x33) (by decide) tag h

theorem exec_voiceHold (hs : s.takesRequests) (hv : voice.toNat = v.val) (tag : Byte) {st : Status} {t : State}
    (h : s.opHold ⟨v, g⟩ = (st, t)) : exec (.voiceHold tag voice g) s = .next (t.replying tag 0xB4 st []) :=
  State.request_onVoice hs hv State.opHold_ignoresReply (type := 0x34) (by decide) tag h

theorem exec_voiceContinue (hs : s.takesRequests) (hv : voice.toNat = v.val) (tag : Byte) {st : Status} {t : State}
    (h : s.opContinue ⟨v, g⟩ = (st, t)) : exec (.voiceContinue tag voice g) s = .next (t.replying tag 0xB5 st []) :=
  State.request_onVoice hs hv State.opContinue_ignoresReply (type := 0x35) (by decide) tag h

/-- VOICE RAMP with its fields in range, where RAMP answers every ramp alike (R20). -/
theorem exec_voiceRamp_inRange (hs : s.takesRequests) (hv : voice.toNat = v.val) (tag : Byte) {target : Half}
    {rate scale mode notify : Byte} {st : Status} {t : State} (h : ∀ r, s.opRamp ⟨v, g⟩ r = (st, t))
    (hin : target.toNat ≤ 4095 ∧ rate ≠ 0 ∧ scale.toNat ≤ 3 ∧ mode.toNat ≤ 2) :
    exec (.voiceRamp tag voice g target rate scale mode notify) s = .next (t.replying tag 0xB1 st []) := by
  obtain ⟨ht, hr, hk, hm⟩ := hin
  obtain ⟨k, hk⟩ := Scale.exists_code hk
  obtain ⟨m, hm⟩ := RampMode.exists_code hm
  exact exec_voiceRamp hs hv (rampOf_good ht hr hk hm) tag (h _)

end

/-- Settles O37: the three kinds of handle that do not sound. -/
theorem handlesThatDoNotSound : Obligations.HandlesThatDoNotSound := by
  unfold Obligations.HandlesThatDoNotSound
  intro tag voice g v target rate scale mode notify s hs hv
  dsimp only
  refine ⟨fun h => ?_, fun y c hb hg hc => ?_, fun y c z hb hg => ?_⟩
  · obtain ⟨ramp, release, stop, hold, goOn⟩ := State.operations_stale (State.handleKind_stale h)
    exact ⟨exec_voiceRamp_inRange hs hv tag ramp, exec_voiceRelease hs hv tag release, exec_voiceStop hs hv tag stop,
      exec_voiceHold hs hv tag hold, exec_voiceContinue hs hv tag goOn⟩
  · obtain ⟨ramp, release, stop, hold, goOn⟩ := State.operations_beingCut (State.handleKind_beingCut hb hg hc)
    exact ⟨exec_voiceRamp_inRange hs hv tag ramp, exec_voiceRelease hs hv tag release, exec_voiceStop hs hv tag stop,
      exec_voiceHold hs hv tag hold, exec_voiceContinue hs hv tag goOn⟩
  · obtain ⟨ramp, release, stop, hold, goOn⟩ := State.operations_awaiting (State.handleKind_awaiting hb hg)
    rw [State.cancelSuccessor_eq hb, hg] at release stop
    exact ⟨exec_voiceRamp_inRange hs hv tag ramp, exec_voiceHold hs hv tag hold, exec_voiceContinue hs hv tag goOn,
      s.releaseClaim z.order.clip, State.claimedLess_releaseClaim .., exec_voiceRelease hs hv tag release,
      exec_voiceStop hs hv tag stop⟩

/-- Settles O38: each operation by the state of the voice. -/
theorem operationsOnASoundingHandle : Obligations.OperationsOnASoundingHandle := by
  unfold Obligations.OperationsOnASoundingHandle
  refine ⟨fun tag voice g v target rate scale mode notify k m s hs hv hg ht hr hk hm => ?_,
    fun tag voice g v s hs hv hg => ?_⟩
  · have spells := rampOf_good (notify := yesNo notify) (offset := 2) ht hr hk hm
    subst hg
    refine fun y => ⟨fun hb => ⟨exec_voiceRamp hs hv spells tag (State.opRamp_playing hb rfl _), fun hn => ?_, fun q hq => ?_⟩,
      fun hb => ⟨exec_voiceRamp hs hv spells tag (State.opRamp_heldPlaying hb rfl _), fun hn => ?_, fun q hq => ?_⟩,
      fun hb => ?_⟩
    · exact exec_voiceRelease hs hv tag (State.opRelease_playing_freed hb rfl hn)
    · exact exec_voiceRelease hs hv tag (State.opRelease_playing_fades hb rfl hq)
    · exact exec_voiceRelease hs hv tag (State.opRelease_heldPlaying_freed hb rfl hn)
    · exact exec_voiceRelease hs hv tag (State.opRelease_heldPlaying_fades hb rfl hq)
    · obtain ⟨ramp, release⟩ := State.operations_releasing hb rfl
      exact ⟨exec_voiceRamp hs hv spells tag (ramp _), exec_voiceRelease hs hv tag release⟩
  · subst hg
    refine fun y => ⟨fun hb => ?_, fun hb => exec_voiceHold hs hv tag (State.opHold_playing hb rfl),
      fun hb => exec_voiceHold hs hv tag (State.opHold_releasing hb rfl), fun w hb => ?_⟩
    · obtain ⟨stop, goOn⟩ := State.operations_moving hb rfl
      exact ⟨exec_voiceStop hs hv tag stop, exec_voiceContinue hs hv tag goOn⟩
    · obtain ⟨hold, goOn, stop⟩ := State.operations_held hb rfl
      rw [State.endFree_eq (by simp [Voice.stands, hb])] at stop
      refine ⟨exec_voiceHold hs hv tag hold, ?_, s.releaseClaim y.clip,
        State.claimedLess_releaseClaim .., exec_voiceStop hs hv tag stop⟩
      cases w <;> exact exec_voiceContinue hs hv tag goOn

end Sys2Proof.Machine
end

section
/-! PROOFS. The frame work of one voice, and of the voices in turn (R3, R11, R12); the command of log 3 that takes a voice's frame
ahead where its cut completes. -/

namespace Sys2Proof.Machine

/-! ### The voices in turn (R3) -/

/-- The voices that take the coming frame with the voices up to number `last`. -/
def voicesFrom (first last : Nat) : List (Fin 16) := allVoices.filter fun v => decide (first ≤ v.val ∧ v.val ≤ last)

theorem State.progress_voiceFrame (s : State) (v : Fin 16) : (s.voiceFrame v).progress = s.progress :=
  (Moves.voiceFrame s v).untouched.progress

theorem State.foldl_voiceTurn (last : Nat) (l : List (Fin 16)) (s : State) :
    l.foldl (State.voiceTurn last) s
      = (l.filter fun v => decide (s.progress.voices ≤ v.val ∧ v.val ≤ last)).foldl State.voiceFrame s := by
  induction l generalizing s with
  | nil => rfl
  | cons v l ih =>
    rw [List.foldl_cons, ih, List.filter_cons]
    unfold State.voiceTurn
    by_cases h : s.progress.voices ≤ v.val ∧ v.val ≤ last
    · rw [if_pos h, if_pos (decide_eq_true h), List.foldl_cons, State.progress_voiceFrame]
    · rw [if_neg h, if_neg (by simpa using h)]

theorem State.voicesThrough_eq (s : State) (last : Nat) :
    s.voicesThrough last = (voicesFrom s.progress.voices last).foldl State.voiceFrame s := State.foldl_voiceTurn ..

/-- Where the lower voices have taken the frame, only the voice itself is left. -/
theorem voicesFrom_self (v : Fin 16) : voicesFrom v.val v.val = [v] := by
  revert v
  decide

/-! ### The frame work of a voice by its body (R2, R3, R11) -/

/-- The advance touches the direction, the position and the loops alone (R3). -/
theorem Sounding.advance_eq {x y : Sounding} {r : ClipRecord} (h : x.advance r = some y) :
    y = { x with direction := y.direction, pos := y.pos, loops := y.loops } := by
  unfold Sounding.advance at h
  dsimp only at h
  split at h
  · cases h
  · cases h
    rfl

section

variable {s : State} {v : Fin 16} {x : Sounding} {r : ClipRecord}

/-- The contributions of a cut frame (R11). -/
def cutContribution (m : Memory) (r : ClipRecord) (x : Sounding) (c : Cut) : Int × Int :=
  (cutScaled (soundingContribution m r x).1 c.framesLeft, cutScaled (soundingContribution m r x).2 c.framesLeft)

theorem State.voiceFrame_cutting {c : Cut} {z : Option Successor} (hb : (s.voice v).body = .cutting x c z)
    (hr : (s.clip x.clip).record = some r) {y : Sounding} (ha : x.advance r = some y) (hc : 1 < c.framesLeft) :
    s.voiceFrame v = (s.setContribution v (cutContribution s.mem r x c)).setBody v
      (.cutting y { c with framesLeft := c.framesLeft - 1 } z) := by
  unfold State.voiceFrame
  rw [hb]
  unfold State.cutFrame
  dsimp only
  rw [hr]
  dsimp only
  rw [ha]
  dsimp only
  rw [if_neg (by omega)]
  rfl

/-- The cut completes by its last frame or by the clip's end (R11, R12): what ends is the start as the statement names it. -/
theorem State.voiceFrame_cut_completes {c : Cut} {z : Option Successor} (hb : (s.voice v).body = .cutting x c z)
    (hr : (s.clip x.clip).record = some r) (hc : c.framesLeft ≤ 1 ∨ x.advance r = none) :
    s.voiceFrame v = (s.setContribution v (cutContribution s.mem r x c)).completeCut v x c z := by
  unfold State.voiceFrame
  rw [hb]
  unfold State.cutFrame
  dsimp only
  rw [hr]
  dsimp only
  cases ha : x.advance r with
  | none => rfl
  | some y =>
    dsimp only
    rw [if_pos (by rcases hc with hc | hc; exact hc; rw [ha] at hc; cases hc), Sounding.advance_eq ha]
    rfl

/-! ### A cut completes (R12, R13) -/

theorem State.noted_setContribution (a : Int × Int) (n : Bool) (g q : Byte) (o : Owner) :
    (s.setContribution v a).noted n v g q o = s.noted n v g q o :=
  State.noted_congr (s := s) (t := s.setContribution v a) rfl rfl ..

theorem State.completeCut_frees {c : Cut} {y : Sounding} (hb : (s.voice v).body = .cutting y c none) (x : Sounding) :
    s.completeCut v x c none = { s.releaseClaim x.clip with
      voices := s.voices.set v ⟨(s.voice v).generation, .free⟩
      alc := { s.alc with age := s.alc.age.erase v, offerDue := true }
      signals := if c.generation = (s.voice v).generation then s.signals ++ [⟨v, (s.voice v).generation⟩] else s.signals
      evq := s.noted x.noteEnd v c.generation c.reason.endReason.code x.owner } := by
  have live : (s.voice v).namesSounding c.generation = decide (c.generation = (s.voice v).generation) := by
    unfold Voice.namesSounding
    rw [hb]
  unfold State.completeCut
  rw [State.endStart_eq, live, State.releaseClaim_eq]
  by_cases same : c.generation = (s.voice v).generation
  · rw [same, decide_eq_true rfl, if_pos rfl, if_pos rfl]
    rfl
  · rw [decide_eq_false same, if_neg same, if_neg Bool.false_ne_true]
    rfl

/-- The successor begins on the voice of the cut start (R12). -/
theorem State.completeCut_begins {c : Cut} {y : Sounding} {z : Successor} {q : ClipRecord}
    (hb : (s.voice v).body = .cutting y c (some z)) (hq : (s.clip z.order.clip).record = some q) (x : Sounding) :
    s.completeCut v x c (some z) = { s.releaseClaim x.clip with
      voices := s.voices.set v ⟨(s.voice v).generation, .playing (z.order.begin z.owner q)⟩
      evq := s.noted x.noteEnd v c.generation c.reason.endReason.code x.owner } := by
  have silent : (s.voice v).namesSounding c.generation = false := by
    unfold Voice.namesSounding
    rw [hb]
  have record : ((s.endStart v x c.generation c.reason.endReason).clip z.order.clip).record = some q := by
    rw [(Moves.endStart ..).untouched.records, hq]
  unfold State.completeCut
  dsimp only
  rw [record]
  dsimp only
  rw [State.endStart_eq, silent, State.releaseClaim_eq]
  rfl

theorem State.cutEndsNext_iff {c : Cut} {z : Option Successor} (hb : (s.voice v).body = .cutting x c z)
    (hr : (s.clip x.clip).record = some r) :
    s.cutEndsNext v = true ↔ c.framesLeft ≤ 1 ∨ x.advance r = none := by
  unfold State.cutEndsNext
  rw [hb]
  dsimp only
  rw [hr]
  simp

end

/-- CUT_COMPLETE where the cut completes and the lower voices have taken the frame (log 3). -/
theorem exec_cutComplete {s : State} {v : Fin 16} (hp : s.power = true) (hv : s.progress.voices = v.val)
    (hc : s.cutEndsNext v = true) :
    exec (.cutComplete v) s
      = .next { s.voiceFrame v with progress := { s.progress with voices := v.val + 1 } } := by
  show Host.Outcome.next (s.cutAhead v) = _
  unfold State.cutAhead State.voiceAhead
  rw [if_pos (by simp [hp, hv, hc]), State.voicesThrough_eq, hv, voicesFrom_self]
  rfl

/-- CUT_COMPLETE where no cut completes has no effect (log 3). -/
theorem exec_cutComplete_idle {s : State} {v : Fin 16} (hc : s.cutEndsNext v = false) :
    exec (.cutComplete v) s = .next s := by
  show Host.Outcome.next (s.cutAhead v) = _
  unfold State.cutAhead
  rw [if_neg (by simp [hc])]

/-- Settles O45: the frame work of the voice, taken ahead, ends the cut start. -/
theorem cutCompletes : Obligations.CutCompletes := by
  unfold Obligations.CutCompletes
  intro v x c r s hp hv hr
  dsimp only
  refine ⟨fun z y hb ha hc => exec_cutComplete_idle ?_, fun hc => ⟨fun hb => ?_, fun z q hb hq => ?_⟩⟩
  · rw [← Bool.not_eq_true, State.cutEndsNext_iff hb hr]
    simp [ha, hc]
  · refine ⟨s.releaseClaim x.clip, State.claimedLess_releaseClaim .., ?_⟩
    rw [exec_cutComplete hp hv ((State.cutEndsNext_iff hb hr).2 hc), State.voiceFrame_cut_completes hb hr hc,
      State.completeCut_frees (s := s.setContribution v _) hb, State.noted_setContribution, State.releaseClaim_eq,
      State.releaseClaim_eq]
    rfl
  · refine ⟨s.releaseClaim x.clip, State.claimedLess_releaseClaim .., ?_⟩
    rw [exec_cutComplete hp hv ((State.cutEndsNext_iff hb hr).2 hc), State.voiceFrame_cut_completes hb hr hc,
      State.completeCut_begins (s := s.setContribution v _) hb hq, State.noted_setContribution, State.releaseClaim_eq,
      State.releaseClaim_eq]
    rfl

end Sys2Proof.Machine
end

section
/-! PROOFS. One output frame without a tick: what the frame work of a voice makes of that voice and leaves of the others, the
mix, and the clip's end of a start that sounds alone (R2, R3, R11, R13, R26, R28 to R31, R139, R141). -/

namespace Sys2Proof.Machine

/-! ### What the frame work of one voice leaves alone -/

/-- The other voices and their contributions are as they were, and so are every generation and the count of OUTPUT_CLIPS. -/
structure ActsOn (v : Fin 16) (s t : State) : Prop where
  generation : ∀ w, (t.voice w).generation = (s.voice w).generation
  voice : ∀ w, w ≠ v → t.voice w = s.voice w
  contribution : ∀ w, w ≠ v → t.out.contributions.get w = s.out.contributions.get w
  clipCount : t.evq.tallies.get 10 = s.evq.tallies.get 10

namespace ActsOn

variable {v : Fin 16}

theorem refl (s : State) : ActsOn v s s := ⟨fun _ => rfl, fun _ _ => rfl, fun _ _ => rfl, rfl⟩

theorem trans {s t u : State} (h : ActsOn v s t) (k : ActsOn v t u) : ActsOn v s u where
  generation w := (k.generation w).trans (h.generation w)
  voice w hw := (k.voice w hw).trans (h.voice w hw)
  contribution w hw := (k.contribution w hw).trans (h.contribution w hw)
  clipCount := k.clipCount.trans h.clipCount

theorem setContribution (s : State) (a : Int × Int) : ActsOn v s (s.setContribution v a) where
  generation _ := rfl
  voice _ _ := rfl
  contribution _ hw := Table.get_set_of_ne _ hw.symm _
  clipCount := rfl

theorem setBody (s : State) (b : VoiceBody) : ActsOn v s (s.setBody v b) where
  generation w := by
    rw [State.voice_setBody]
    split
    · next h => rw [h]
    · rfl
  voice w hw := by rw [State.voice_setBody, if_neg hw.symm]
  contribution _ _ := rfl
  clipCount := rfl

/-- A record that is dropped counts in EVENTS_LOST alone (R152). -/
theorem post (s : State) (k : EventKind) (n : Nat) (g r : Byte) (x : BitVec 32) : ActsOn v s (s.post k n g r x) where
  generation _ := by simp
  voice _ _ := by simp
  contribution _ _ := by simp
  clipCount := by
    unfold State.post
    split
    · rfl
    · exact Table.get_set_of_ne _ (by decide) _

theorem noted (s : State) (n : Bool) (w : Fin 16) (g r : Byte) (o : Owner) :
    (s.noted n w g r o).tallies.get 10 = s.evq.tallies.get 10 := by
  unfold State.noted
  split
  · exact (post (v := w) ..).clipCount
  · rfl

theorem endStart (s : State) (x : Sounding) (g : Byte) (r : EndReason) : ActsOn v s (s.endStart v x g r) := by
  rw [State.endStart_eq, State.releaseClaim_eq]
  exact ⟨fun _ => rfl, fun _ _ => rfl, fun _ _ => rfl, noted ..⟩

theorem freeVoice (s : State) : ActsOn v s (s.freeVoice v) :=
  have h : ActsOn v (s.setAge (s.alc.age.erase v)) ((s.setAge (s.alc.age.erase v)).setBody v .free) := setBody ..
  ⟨h.generation, h.voice, h.contribution, h.clipCount⟩

theorem endFree (s : State) (x : Sounding) (r : EndReason) : ActsOn v s (s.endFree v x r) :=
  (endStart ..).trans (freeVoice ..)

theorem completeCut (s : State) (x : Sounding) (c : Cut) (z : Option Successor) : ActsOn v s (s.completeCut v x c z) := by
  unfold State.completeCut
  dsimp only
  split
  · exact (endStart ..).trans (freeVoice ..)
  · split
    · exact (endStart ..).trans (freeVoice ..)
    · exact (endStart ..).trans (setBody ..)

theorem rampArrives (s : State) (x : Sounding) (p : Ramp) (n : Nat) : ActsOn v s (s.rampArrives v x p n) := by
  unfold State.rampArrives
  split
  · exact post ..
  · exact refl s

theorem advanceRamp (s : State) (x : Sounding) (b : Sounding → VoiceBody) (releasing : Bool) :
    ActsOn v s (s.advanceRamp v x b releasing) := by
  unfold State.advanceRamp
  split
  · exact setBody ..
  · split
    · exact setBody ..
    · dsimp only
      split
      · exact ((rampArrives ..).trans (setBody ..)).trans (endFree ..)
      · exact (rampArrives ..).trans (setBody ..)

theorem soundingFrame (s : State) (x : Sounding) (b : Sounding → VoiceBody) (releasing : Bool) :
    ActsOn v s (s.soundingFrame v x b releasing) := by
  unfold State.soundingFrame
  split
  · exact setContribution ..
  · dsimp only
    split
    · exact (setContribution ..).trans (endFree ..)
    · exact (setContribution ..).trans (advanceRamp ..)

theorem cutFrame (s : State) (x : Sounding) (c : Cut) (z : Option Successor) : ActsOn v s (s.cutFrame v x c z) := by
  unfold State.cutFrame
  split
  · exact setContribution ..
  · dsimp only
    split
    · exact (setContribution ..).trans (completeCut ..)
    · split
      · exact (setContribution ..).trans (completeCut ..)
      · exact (setContribution ..).trans (setBody ..)

/-- The frame work of a voice (R2, R3, R11). -/
theorem voiceFrame (s : State) (v : Fin 16) : ActsOn v s (s.voiceFrame v) := by
  unfold State.voiceFrame
  split
  · exact setContribution ..
  · exact setContribution ..
  · exact soundingFrame ..
  · exact soundingFrame ..
  · exact cutFrame ..

end ActsOn

/-! ### What the frame work of one voice makes of it -/

@[simp] theorem State.out_endStart (s : State) (v : Fin 16) (x : Sounding) (g : Byte) (r : EndReason) :
    (s.endStart v x g r).out = s.out := by
  rw [State.endStart_eq, State.releaseClaim_eq]

@[simp] theorem State.out_endFree (s : State) (v : Fin 16) (x : Sounding) (r : EndReason) : (s.endFree v x r).out = s.out :=
  State.out_endStart ..

@[simp] theorem State.body_endFree (s : State) (v : Fin 16) (x : Sounding) (r : EndReason) :
    ((s.endFree v x r).voice v).body = .free := by
  unfold State.endFree State.freeVoice
  rw [show ∀ t : State, t.offer.voice v = t.voice v from fun _ => rfl, State.voice_setBody, if_pos rfl]

@[simp] theorem State.out_rampArrives (s : State) (v : Fin 16) (x : Sounding) (p : Ramp) (n : Nat) :
    (s.rampArrives v x p n).out = s.out := by
  unfold State.rampArrives
  split <;> simp

@[simp] theorem State.out_advanceRamp (s : State) (v : Fin 16) (x : Sounding) (b : Sounding → VoiceBody) (releasing : Bool) :
    (s.advanceRamp v x b releasing).out = s.out := by
  unfold State.advanceRamp
  split
  · rfl
  · split
    · rfl
    · dsimp only
      split <;> simp

theorem State.body_advanceRamp_none {s : State} {x : Sounding} (h : x.ramp = none) (v : Fin 16) (b : Sounding → VoiceBody)
    (releasing : Bool) : ((s.advanceRamp v x b releasing).voice v).body = b x := by
  unfold State.advanceRamp
  rw [h]
  simp

/-- A RELEASING start whose ramp arrives ends (R30); any other plays on with the ramp's level (R28 to R31). -/
theorem State.body_advanceRamp_some {s : State} {x : Sounding} {p : Ramp} (h : x.ramp = some p) (v : Fin 16)
    (b : Sounding → VoiceBody) (releasing : Bool) :
    ((s.advanceRamp v x b releasing).voice v).body
      = if (rampAdvance x.level p).2 = none ∧ releasing = true then .free
        else b { x with level := (rampAdvance x.level p).1, ramp := (rampAdvance x.level p).2 } := by
  unfold State.advanceRamp
  rw [h]
  dsimp only
  split
  · next level q hq => simp [hq]
  · next level hq =>
    rw [hq]
    cases releasing <;> simp

/-- What one frame makes of a voice and of its contributions, from its body, its clip and the store before (R2, R3, R11). -/
structure FrameOutcome (s : State) (v : Fin 16) (now : VoiceBody) (gives : Int × Int) : Prop where
  free : (s.voice v).body = .free → gives = (0, 0) ∧ now = .free
  held : ∀ x h, (s.voice v).body = .held x h → gives = (0, 0) ∧ now = .held x h
  sounding : ∀ x r, (s.voice v).body = .playing x ∨ (s.voice v).body = .releasing x → (s.clip x.clip).record = some r →
    gives = soundingContribution s.mem r x
    ∧ (x.advance r = none → now = .free)
    ∧ ∀ y, x.advance r = some y →
      (x.ramp = none → ((s.voice v).body = .playing x → now = .playing y)
        ∧ ((s.voice v).body = .releasing x → now = .releasing y))
      ∧ ∀ p, x.ramp = some p →
        ((s.voice v).body = .playing x →
          now = .playing { y with level := (rampAdvance x.level p).1, ramp := (rampAdvance x.level p).2 })
        ∧ ((s.voice v).body = .releasing x → now = if (rampAdvance x.level p).2 = none then .free
          else .releasing { y with level := (rampAdvance x.level p).1, ramp := (rampAdvance x.level p).2 })
  cutting : ∀ x c z r, (s.voice v).body = .cutting x c z → (s.clip x.clip).record = some r →
    gives = cutContribution s.mem r x c
    ∧ ∀ y, x.advance r = some y → 1 < c.framesLeft → now = .cutting y { c with framesLeft := c.framesLeft - 1 } z

theorem State.voiceFrame_free {s : State} {v : Fin 16} (h : (s.voice v).body = .free) :
    s.voiceFrame v = s.setContribution v (0, 0) := by
  unfold State.voiceFrame
  rw [h]

theorem State.voiceFrame_held {s : State} {v : Fin 16} {x : Sounding} {w : HeldFrom} (h : (s.voice v).body = .held x w) :
    s.voiceFrame v = s.setContribution v (0, 0) := by
  unfold State.voiceFrame
  rw [h]

section

variable {s : State} {v : Fin 16} {x : Sounding} {r : ClipRecord}

/-- The clip of a sounding start ends (R6, R7). -/
theorem State.voiceFrame_clip_ends (hb : (s.voice v).body = .playing x ∨ (s.voice v).body = .releasing x)
    (hr : (s.clip x.clip).record = some r) (ha : x.advance r = none) :
    s.voiceFrame v = (s.setContribution v (soundingContribution s.mem r x)).endFree v x .clipEnd := by
  unfold State.voiceFrame State.soundingFrame
  rcases hb with hb | hb <;> simp only [hb, hr, ha]

theorem State.voiceFrame_playing {y : Sounding} (hb : (s.voice v).body = .playing x)
    (hr : (s.clip x.clip).record = some r) (ha : x.advance r = some y) :
    s.voiceFrame v = (s.setContribution v (soundingContribution s.mem r x)).advanceRamp v y .playing false := by
  unfold State.voiceFrame State.soundingFrame
  simp only [hb, hr, ha]

theorem State.voiceFrame_releasing {y : Sounding} (hb : (s.voice v).body = .releasing x)
    (hr : (s.clip x.clip).record = some r) (ha : x.advance r = some y) :
    s.voiceFrame v = (s.setContribution v (soundingContribution s.mem r x)).advanceRamp v y .releasing true := by
  unfold State.voiceFrame State.soundingFrame
  simp only [hb, hr, ha]

theorem State.out_completeCut (c : Cut) (z : Option Successor) :
    (s.completeCut v x c z).out = s.out := by
  unfold State.completeCut
  dsimp only
  split
  · exact State.out_endStart ..
  · split
    · exact State.out_endStart ..
    · exact State.out_endStart ..

/-- A sounding start gives the contributions of its sample, whether it ends or not (R3). -/
theorem State.contribution_voiceFrame_sounding (hb : (s.voice v).body = .playing x ∨ (s.voice v).body = .releasing x)
    (hr : (s.clip x.clip).record = some r) :
    (s.voiceFrame v).out.contributions.get v = soundingContribution s.mem r x := by
  cases ha : x.advance r with
  | none => rw [State.voiceFrame_clip_ends hb hr ha]; simp [State.setContribution]
  | some y =>
    rcases hb with hb | hb
    · rw [State.voiceFrame_playing hb hr ha]; simp [State.setContribution]
    · rw [State.voiceFrame_releasing hb hr ha]; simp [State.setContribution]

/-- The voice of a sounding start whose clip does not end: its ramp advances (R3, R28 to R31). -/
theorem State.body_voiceFrame_sounding {y : Sounding} (ha : x.advance r = some y)
    (b : Sounding → VoiceBody) (releasing : Bool)
    (hf : s.voiceFrame v = (s.setContribution v (soundingContribution s.mem r x)).advanceRamp v y b releasing) :
    (x.ramp = none → ((s.voiceFrame v).voice v).body = b y)
    ∧ ∀ p, x.ramp = some p → ((s.voiceFrame v).voice v).body
        = if (rampAdvance x.level p).2 = none ∧ releasing = true then .free
          else b { y with level := (rampAdvance x.level p).1, ramp := (rampAdvance x.level p).2 } := by
  have same := Sounding.advance_eq ha
  have level : y.level = x.level := by rw [same]
  have ramp : y.ramp = x.ramp := by rw [same]
  rw [hf]
  exact ⟨fun h => State.body_advanceRamp_none (ramp.trans h) ..,
    fun p h => by rw [State.body_advanceRamp_some (ramp.trans h), level]⟩

/-- The frame work of a voice has the outcome that R2, R3 and R11 give. -/
theorem frameOutcome_voiceFrame (s : State) (v : Fin 16) :
    FrameOutcome s v ((s.voiceFrame v).voice v).body ((s.voiceFrame v).out.contributions.get v) where
  free hb := by
    rw [State.voiceFrame_free hb]
    exact ⟨Table.get_set_self .., hb⟩
  held x h hb := by
    rw [State.voiceFrame_held hb]
    exact ⟨Table.get_set_self .., hb⟩
  sounding x r hb hr := by
    refine ⟨State.contribution_voiceFrame_sounding hb hr, fun ha => ?_, fun y ha => ?_⟩
    · rw [State.voiceFrame_clip_ends hb hr ha, State.body_endFree]
    · have playing (h : (s.voice v).body = .playing x) :=
        State.body_voiceFrame_sounding ha _ _ (State.voiceFrame_playing h hr ha)
      have releasing (h : (s.voice v).body = .releasing x) :=
        State.body_voiceFrame_sounding ha _ _ (State.voiceFrame_releasing h hr ha)
      refine ⟨fun hp => ⟨fun h => (playing h).1 hp, fun h => (releasing h).1 hp⟩,
        fun p hp => ⟨fun h => ?_, fun h => ?_⟩⟩
      · simpa using (playing h).2 p hp
      · simpa using (releasing h).2 p hp
  cutting x c z r hb hr := by
    refine ⟨?_, fun y ha hc => ?_⟩
    · by_cases hc : c.framesLeft ≤ 1 ∨ x.advance r = none
      · rw [State.voiceFrame_cut_completes hb hr hc, State.out_completeCut]
        exact Table.get_set_self ..
      · obtain ⟨hc, ha⟩ := not_or.1 hc
        obtain ⟨y, ha⟩ := Option.ne_none_iff_exists'.1 ha
        rw [State.voiceFrame_cutting hb hr ha (by omega)]
        exact Table.get_set_self ..
    · rw [State.voiceFrame_cutting hb hr ha hc, State.voice_setBody, if_pos rfl]

end

/-! ### The voices of a frame in turn -/

/-- The outcome of a voice's frame depends on its own body, the clips' records and the store alone. -/
theorem FrameOutcome.of_same {s u : State} {v : Fin 16} {now : VoiceBody} {gives : Int × Int} (hv : u.voice v = s.voice v)
    (hr : ∀ c, (u.clip c).record = (s.clip c).record) (hm : u.mem = s.mem) (h : FrameOutcome u v now gives) :
    FrameOutcome s v now gives := by
  obtain ⟨free, held, sounding, cutting⟩ := h
  simp only [hv, hr, hm] at free held sounding cutting
  exact ⟨free, held, sounding, cutting⟩

/-- Voices that are not in a series take no frame work in it. -/
theorem State.foldl_voiceFrame_elsewhere {v : Fin 16} {l : List (Fin 16)} (h : v ∉ l) (s : State) :
    (l.foldl State.voiceFrame s).voice v = s.voice v
    ∧ (l.foldl State.voiceFrame s).out.contributions.get v = s.out.contributions.get v := by
  induction l generalizing s with
  | nil => exact ⟨rfl, rfl⟩
  | cons w l ih =>
    obtain ⟨hw, hl⟩ := not_or.1 (mt List.mem_cons.2 h)
    obtain ⟨voice, gives⟩ := ih hl (s.voiceFrame w)
    have acts := ActsOn.voiceFrame s w
    exact ⟨voice.trans (acts.voice v hw), gives.trans (acts.contribution v hw)⟩

/-- Each voice of a series takes its frame work once, as if alone. -/
theorem State.frameOutcome_foldl {v : Fin 16} {l : List (Fin 16)} (hv : v ∈ l) (hl : l.Nodup) (s : State) :
    FrameOutcome s v ((l.foldl State.voiceFrame s).voice v).body
      ((l.foldl State.voiceFrame s).out.contributions.get v) := by
  induction l generalizing s with
  | nil => cases hv
  | cons w l ih =>
    obtain ⟨hw, hl⟩ := List.nodup_cons.1 hl
    rw [List.foldl_cons]
    by_cases e : v = w
    · subst e
      obtain ⟨voice, gives⟩ := State.foldl_voiceFrame_elsewhere hw (s.voiceFrame v)
      rw [voice, gives]
      exact frameOutcome_voiceFrame s v
    · have untouched := (Moves.voiceFrame s w).untouched
      exact (ih ((List.mem_cons.1 hv).resolve_left e) hl (s.voiceFrame w)).of_same ((ActsOn.voiceFrame s w).voice v e)
        untouched.records untouched.mem

theorem State.foldl_voiceFrame_keeps (l : List (Fin 16)) (s : State) :
    (∀ v, ((l.foldl State.voiceFrame s).voice v).generation = (s.voice v).generation)
    ∧ (l.foldl State.voiceFrame s).evq.tallies.get 10 = s.evq.tallies.get 10 := by
  induction l generalizing s with
  | nil => exact ⟨fun _ => rfl, rfl⟩
  | cons w l ih =>
    obtain ⟨generation, count⟩ := ih (s.voiceFrame w)
    have acts := ActsOn.voiceFrame s w
    exact ⟨fun v => (generation v).trans (acts.generation v), count.trans acts.clipCount⟩

theorem mem_voicesFrom {v : Fin 16} {first : Nat} : v ∈ voicesFrom first 15 ↔ first ≤ v.val := by
  have all : ∀ v : Fin 16, v ∈ allVoices := by decide
  unfold voicesFrom
  simp only [List.mem_filter, all v, true_and, decide_eq_true_eq]
  omega

theorem nodup_voicesFrom (first last : Nat) : (voicesFrom first last).Nodup :=
  List.Nodup.filter _ (by decide)

end Sys2Proof.Machine
end

section
/-! PROOFS. One output frame without a tick, whole: the voices, the mix and the gap counts, and the clip's end of a start that
sounds alone (R13, R137, R139 to R141). -/

namespace Sys2Proof.Machine

/-! ### The mix (R139 to R141) -/

theorem Out.foldl_bus (l : List (Int × Int)) (a : Int × Int) :
    l.foldl (fun b c => (b.1 + c.1, b.2 + c.2)) a
      = (a.1 + (l.map fun c => c.1).sum, a.2 + (l.map fun c => c.2).sum) := by
  induction l generalizing a with
  | nil => simp
  | cons c l ih =>
    rw [List.foldl_cons, ih]
    simp [add_assoc]

theorem map_finRange_get {α β : Type} {n : Nat} (t : Table α n) (f : α → β) :
    ((List.finRange n).map fun i => f (t.get i)) = t.cells.map f := by
  apply List.ext_getElem
  · simp [t.size_eq]
  · intro i _ _
    simp [Table.get_eq_getElem]

/-- The buses are the sums of the sixteen contributions (R139). -/
theorem Out.bus_eq (o : Out) :
    o.bus = (((List.finRange 16).map fun v => (o.contributions.get v).1).sum,
      ((List.finRange 16).map fun v => (o.contributions.get v).2).sum) := by
  rw [map_finRange_get o.contributions fun c => c.1, map_finRange_get o.contributions fun c => c.2]
  unfold Out.bus
  rw [Out.foldl_bus]
  simp

/-- A value outside the range of the output stage (R141). -/
theorem outside_iff (y : Int) : outside y = true ↔ y < -32767 ∨ 32767 < y := by simp [outside]

/-- A frame counts OUTPUT_CLIPS by its two sides in STEREO, and by their mean in MONO (R140, R141). -/
theorem Out.clips_iff (o : Out) :
    o.clips = true ↔
      if o.mode = .stereo then
        outside (scaleBy o.bus.1 o.leftMaster) = true ∨ outside (scaleBy o.bus.2 o.rightMaster) = true
      else outside (Int.tdiv (scaleBy o.bus.1 o.leftMaster + scaleBy o.bus.2 o.rightMaster) 2) = true := by
  unfold Out.clips Out.values
  cases o.mode <;> simp

/-- OUT as a frame leaves it, before the sub-count moves on. -/
def State.mixedOut (s : State) : Out :=
  { (if s.progress.mute then s.out else s.out.stepMute) with
    shown := (if s.progress.mute then s.out else s.out.stepMute).formed }

/-- The mix touches OUT, and the tally of OUTPUT_CLIPS where the frame clips. -/
theorem State.mixFrame_eq (s : State) :
    s.mixFrame = if s.mixedOut.clips = true then ({ s with out := s.mixedOut }).raise .outputClips
      else { s with out := s.mixedOut } := rfl

theorem State.contributions_mixedOut (s : State) : s.mixedOut.contributions = s.out.contributions := by
  unfold State.mixedOut
  dsimp only
  split <;> rfl

theorem State.frameSub_mixedOut (s : State) : s.mixedOut.frameSub = s.out.frameSub := by
  unfold State.mixedOut
  dsimp only
  split <;> rfl

/-! ### What the mix and the gap counts leave alone -/

/-- What neither the mix nor a gap count touches. -/
structure BesideOutput (s t : State) : Prop where
  voices : t.voices = s.voices
  alc : t.alc = s.alc
  signals : t.signals = s.signals
  clips : t.clips = s.clips
  sectors : t.sectors = s.sectors
  queue : t.evq.queue = s.evq.queue
  lost : t.evq.lost = s.evq.lost

theorem BesideOutput.trans {s t u : State} (h : BesideOutput s t) (k : BesideOutput t u) : BesideOutput s u :=
  ⟨k.voices.trans h.voices, k.alc.trans h.alc, k.signals.trans h.signals, k.clips.trans h.clips, k.sectors.trans h.sectors,
    k.queue.trans h.queue, k.lost.trans h.lost⟩

theorem State.besideOutput_mixFrame (s : State) : BesideOutput s s.mixFrame := by
  rw [State.mixFrame_eq]
  split <;> exact ⟨rfl, rfl, rfl, rfl, rfl, rfl, rfl⟩

theorem State.out_mixFrame (s : State) : s.mixFrame.out = s.mixedOut := by
  rw [State.mixFrame_eq]
  split <;> rfl

theorem State.clipCount_mixFrame (s : State) :
    s.mixFrame.evq.tallies.get 10
      = if s.mixedOut.clips = true then min 65535 (s.evq.tallies.get 10 + 1) else s.evq.tallies.get 10 := by
  rw [State.mixFrame_eq]
  split
  · exact Table.get_set_self ..
  · rfl

/-- A gap count leaves alone OUT and the count of OUTPUT_CLIPS too. -/
structure BesideGap (s t : State) : Prop extends BesideOutput s t where
  out : t.out = s.out
  clipCount : t.evq.tallies.get 10 = s.evq.tallies.get 10

theorem State.besideGap_raise {s t : State} (h : BesideGap s t) {k : Tally} (hk : k.index ≠ 10) :
    BesideGap s (t.raise k) :=
  ⟨⟨h.voices, h.alc, h.signals, h.clips, h.sectors, h.queue, h.lost⟩, h.out,
    (Table.get_set_of_ne _ hk _).trans h.clipCount⟩

theorem State.besideGap_host (s : State) : BesideGap s s.hostGapShare := by
  have link (l : Lnk) : BesideGap s { s with lnk := l } := ⟨⟨rfl, rfl, rfl, rfl, rfl, rfl, rfl⟩, rfl, rfl⟩
  unfold State.hostGapShare State.hostGapFrame
  split
  · exact link _
  split
  · split
    · exact State.besideGap_raise (link _) (by decide)
    · exact link _
  · exact link _

theorem State.besideGap_trig (s : State) : BesideGap s s.trigGapShare := by
  have receiver (r : Trg) : BesideGap s { s with trg := r } := ⟨⟨rfl, rfl, rfl, rfl, rfl, rfl, rfl⟩, rfl, rfl⟩
  unfold State.trigGapShare State.trigGapFrame
  split
  · exact receiver _
  split
  · split
    · exact State.besideGap_raise (receiver _) (by decide)
    · exact receiver _
  · exact receiver _

/-! ### The frame (R137) -/

/-- A frame that is not the 32nd: the sub-count rises and the next frame begins untaken. -/
theorem State.endFrame_no_tick {s : State} (h : s.out.frameSub + 1 < 32) :
    s.endFrame = { s with
      out := { s.out with frameSub := s.out.frameSub + 1 }, progress := Progress.start } := by
  have untimely : s.tickComes = false := decide_eq_false (by simp only [Config.framesPerTick]; omega)
  unfold State.endFrame
  simp only [untimely, Bool.false_eq_true, if_false]

theorem State.out_voicesThrough (s : State) (last : Nat) :
    (s.voicesThrough last).out = { s.out with contributions := (s.voicesThrough last).out.contributions } := by
  rw [State.voicesThrough_eq]
  exact (Moves.foldl _ Moves.voiceFrame ..).untouched.out

/-- A frame without a tick: what the voices leave, mixed. -/
structure FrameAfter (u t : State) : Prop extends BesideOutput u t where
  out : t.out = { u.mixedOut with frameSub := u.out.frameSub + 1 }
  progress : t.progress = Progress.start
  clipCount : t.evq.tallies.get 10
    = if u.mixedOut.clips = true then min 65535 (u.evq.tallies.get 10 + 1) else u.evq.tallies.get 10

section

variable {u t : State}

theorem FrameAfter.voice (h : FrameAfter u t) (v : Fin 16) : t.voice v = u.voice v := by
  unfold State.voice
  rw [h.voices]

theorem FrameAfter.contributions (h : FrameAfter u t) : t.out.contributions = u.out.contributions := by
  rw [h.out]
  exact State.contributions_mixedOut u

theorem FrameAfter.shown (h : FrameAfter u t) : t.out.shown = t.out.formed := by
  rw [h.out]
  rfl

/-- What the frame shows on its buses is the sum of the contributions (R139). -/
theorem FrameAfter.buses (h : FrameAfter u t) :
    t.out.shown.busLeft = ((List.finRange 16).map fun v => (t.out.contributions.get v).1).sum
    ∧ t.out.shown.busRight = ((List.finRange 16).map fun v => (t.out.contributions.get v).2).sum := by
  rw [h.shown]
  exact ⟨congrArg Prod.fst (Out.bus_eq t.out), congrArg Prod.snd (Out.bus_eq t.out)⟩

/-- A frame counts OUTPUT_CLIPS by what it shows on its buses (R141). -/
theorem FrameAfter.clipCount_iff (h : FrameAfter u t) :
    t.evq.tallies.get 10 = if t.out.clips = true then min 65535 (u.evq.tallies.get 10 + 1) else u.evq.tallies.get 10 := by
  rw [h.clipCount, h.out]
  rfl

end

/-- The blocks behind the voices, in a frame that is not the 32nd (log 4). -/
theorem State.frameAfter_endFrame {u : State} (h : u.out.frameSub + 1 < 32) :
    FrameAfter u ((u.mixFrame.hostGapShare).trigGapShare).endFrame := by
  have mix := State.besideOutput_mixFrame u
  have host := State.besideGap_host u.mixFrame
  have trig := State.besideGap_trig u.mixFrame.hostGapShare
  have beside := (mix.trans host.toBesideOutput).trans trig.toBesideOutput
  have out : ((u.mixFrame.hostGapShare).trigGapShare).out = u.mixedOut := by
    rw [trig.out, host.out, State.out_mixFrame]
  have count := trig.clipCount.trans (host.clipCount.trans (State.clipCount_mixFrame u))
  generalize (u.mixFrame.hostGapShare).trigGapShare = t at beside out count
  rw [State.endFrame_no_tick (by rw [out, State.frameSub_mixedOut]; exact h)]
  exact {
    voices := beside.voices, alc := beside.alc, signals := beside.signals, clips := beside.clips
    sectors := beside.sectors, queue := beside.queue, lost := beside.lost
    out := by dsimp only; rw [out, State.frameSub_mixedOut]
    progress := rfl
    clipCount := count }

theorem State.frameAfter_frame {s : State} (h : s.out.frameSub + 1 < 32) : FrameAfter (s.voicesThrough 15) s.frame := by
  have sub : (s.voicesThrough 15).out.frameSub = s.out.frameSub := by rw [State.out_voicesThrough]
  exact State.frameAfter_endFrame (by rw [sub]; exact h)

theorem exec_frame {s : State} (h : s.power = true) : exec .frame s = .next s.frame := by
  show Host.Outcome.next (if s.power then s.frame else s) = _
  rw [if_pos h]

/-! ### A clip's end where one start sounds (R13) -/

/-- The state with other contributions. -/
def State.contributing (s : State) (cs : Table (Int × Int) 16) : State :=
  { s with out := { s.out with contributions := cs } }

/-- FREE voices only give silence. -/
theorem State.foldl_voiceFrame_free (l : List (Fin 16)) (s : State) (h : ∀ w ∈ l, (s.voice w).body = .free) :
    ∃ cs, l.foldl State.voiceFrame s = s.contributing cs := by
  induction l generalizing s with
  | nil => exact ⟨s.out.contributions, rfl⟩
  | cons w l ih =>
    rw [List.foldl_cons, State.voiceFrame_free (h w List.mem_cons_self)]
    obtain ⟨cs, hcs⟩ := ih (s.setContribution w (0, 0)) fun w' hw' => h w' (List.mem_cons_of_mem _ hw')
    exact ⟨cs, hcs⟩

/-- The end of a start does not depend on the contributions, and leaves them (R13). -/
theorem State.endFree_contributing {s : State} {v : Fin 16} (h : (s.voice v).stands.isSome = true)
    (cs : Table (Int × Int) 16) (x : Sounding) (r : EndReason) :
    (s.contributing cs).endFree v x r = (s.endFree v x r).contributing cs := by
  rw [State.endFree_eq h, State.endFree_eq (s := s.contributing cs) h,
    State.noted_congr (s := s) (t := s.contributing cs) rfl rfl, State.releaseClaim_eq, State.releaseClaim_eq]
  rfl

/-- With one start that sounds and ends by its clip, the voices' work is its end, and contributions. -/
theorem State.foldl_voiceFrame_clip_ends {s : State} {v : Fin 16} {x : Sounding} {r : ClipRecord} {l : List (Fin 16)}
    (hb : (s.voice v).body = .playing x ∨ (s.voice v).body = .releasing x) (hr : (s.clip x.clip).record = some r)
    (ha : x.advance r = none) (alone : ∀ w : Fin 16, w ≠ v → (s.voice w).body = .free) (hv : v ∈ l) (hl : l.Nodup) :
    ∃ cs, l.foldl State.voiceFrame s = (s.endFree v x .clipEnd).contributing cs := by
  have stands : (s.voice v).stands.isSome = true := by rcases hb with hb | hb <;> simp [Voice.stands, hb]
  obtain ⟨before, after, rfl⟩ := List.append_of_mem hv
  have nodup := List.nodup_append.1 hl
  have fresh : v ∉ after := (List.nodup_cons.1 nodup.2.1).1
  have earlier : v ∉ before := fun h => nodup.2.2 v h v List.mem_cons_self rfl
  obtain ⟨cs, hcs⟩ := State.foldl_voiceFrame_free before s fun w hw => alone w (ne_of_mem_of_not_mem hw earlier)
  rw [List.foldl_append, hcs, List.foldl_cons, State.voiceFrame_clip_ends (s := s.contributing cs) hb hr ha]
  have given : (s.contributing cs).setContribution v (soundingContribution s.mem r x)
    = s.contributing (cs.set v (soundingContribution s.mem r x)) := rfl
  rw [show (s.contributing cs).mem = s.mem from rfl, given, State.endFree_contributing stands]
  obtain ⟨cs', hcs'⟩ := State.foldl_voiceFrame_free after
      ((s.endFree v x .clipEnd).contributing (cs.set v (soundingContribution s.mem r x))) fun w hw => by
    have ne := ne_of_mem_of_not_mem hw fresh
    have kept : (s.endFree v x .clipEnd).voice w = s.voice w := (ActsOn.endFree s x .clipEnd).voice w ne
    exact (congrArg Voice.body kept).trans (alone w ne)
  exact ⟨cs', hcs'⟩

/-! ### The advance of a ramp by its sub-count (R28) -/

theorem rampAdvance_waits {p : Ramp} (h : p.sub + 1 < p.scale.frames) (level : Nat) :
    rampAdvance level p = (level, some { p with sub := p.sub + 1 }) := if_neg (by simpa [Ramp.movesNext] using h)

theorem rampAdvance_moves {p : Ramp} (h : ¬p.sub + 1 < p.scale.frames) (level : Nat) :
    rampAdvance level p = moveInstant level { p with sub := 0 } := if_pos (by simpa [Ramp.movesNext] using h)

/-! ### The statement -/

/-- Settles O41: the outcome of each voice, the mix of what they give, and the one start that ends. -/
theorem frameWorksEveryVoice : Obligations.FrameWorksEveryVoice := by
  unfold Obligations.FrameWorksEveryVoice
  intro towards ramped s hp hf
  have ramps : ramped = rampAdvance := by
    funext level p
    by_cases early : p.sub + 1 < p.scale.frames
    · rw [rampAdvance_waits early]
      exact if_pos early
    · rw [rampAdvance_moves early]
      refine (if_neg early).trans ?_
      unfold moveInstant
      by_cases there : level = p.target
      · rw [if_pos there, if_pos there]
        cases p.mode <;> rfl
      · rw [if_neg there, if_neg there]
        by_cases arrives : p.mode = .once ∧ moveToward level p.target p.rate = p.target
        · rw [if_pos arrives]
          refine (if_pos arrives).trans ?_
          rw [arrives.2]
        · rw [if_neg arrives]
          exact if_neg arrives
  clear_value ramped
  subst ramps
  obtain ⟨generation, count⟩ := State.foldl_voiceFrame_keeps (voicesFrom s.progress.voices 15) s
  have elsewhere {v : Fin 16} (hv : v ∉ voicesFrom s.progress.voices 15) := State.foldl_voiceFrame_elsewhere hv s
  have outcome {v : Fin 16} (hv : s.progress.voices ≤ v.val) :=
    State.frameOutcome_foldl (mem_voicesFrom.2 hv) (nodup_voicesFrom ..) s
  have sub := congrArg Out.frameSub (State.out_voicesThrough s 15)
  have run := exec_frame hp
  have after := State.frameAfter_frame hf
  rw [State.voicesThrough_eq] at after sub
  generalize hu : (voicesFrom s.progress.voices 15).foldl State.voiceFrame s = u at *
  generalize s.frame = t at *
  refine ⟨t, run, ?_, after.progress, after.buses.1, after.buses.2, after.shown, ?_,
    fun v => ⟨?_, fun hv => ?_, fun hv => ?_⟩, fun v x r hv hb alone hr ha => ?_⟩
  · rw [after.out]
    exact congrArg (· + 1) sub
  · have clips := Out.clips_iff t.out
    simp only [outside_iff] at clips
    rw [after.clipCount_iff, count, after.shown]
    exact ⟨fun h => if_pos (clips.2 h), fun h => if_neg (mt clips.1 h)⟩
  · rw [after.voice, generation]
  · obtain ⟨voice, gives⟩ := elsewhere (v := v) (by rw [mem_voicesFrom]; omega)
    rw [after.voice, after.contributions, voice, gives]
    exact ⟨rfl, rfl⟩
  · have outcome := outcome hv
    rw [← after.voice, ← after.contributions] at outcome
    exact ⟨outcome.free, outcome.held, outcome.sounding, outcome.cutting⟩
  · have stands : (s.voice v).stands.isSome = true := by rcases hb with hb | hb <;> simp [Voice.stands, hb]
    obtain ⟨cs, voices⟩ := State.foldl_voiceFrame_clip_ends hb hr ha alone (mem_voicesFrom.2 hv) (nodup_voicesFrom ..)
    rw [hu, State.endFree_eq stands] at voices
    rw [after.clips, after.sectors, after.voices, after.alc, after.signals, after.queue, after.lost, voices]
    exact ⟨s.releaseClaim x.clip, State.claimedLess_releaseClaim .., rfl, rfl, rfl, rfl, rfl, rfl, rfl⟩

end Sys2Proof.Machine
end

section
/-! PROOFS. The frame's sample: the value between two samples, the three formats, and the rows of R4 (R3 to R5). -/

namespace Sys2Proof.Machine

/-! ### The value between two samples (R4) -/

/-- The value between two samples is the exact one, rounded toward minus infinity. -/
theorem interpolate_bounds (a b : Int) (w : Nat) :
    4096 * (interpolate a b w - a) ≤ (b - a) * w ∧ (b - a) * w < 4096 * (interpolate a b w - a) + 4096 := by
  unfold interpolate
  rw [Int.fdiv_eq_ediv_of_nonneg _ (by decide)]
  omega

@[simp] theorem interpolate_zero (a b : Int) : interpolate a b 0 = a := by simp [interpolate]

@[simp] theorem interpolate_same (a : Int) (w : Nat) : interpolate a a w = a := by simp [interpolate]

/-- The value stays between its two samples. -/
theorem interpolate_between {a b : Int} {w : Nat} (hw : w < 4096) :
    (a ≤ b → a ≤ interpolate a b w ∧ interpolate a b w ≤ b)
    ∧ (b ≤ a → b ≤ interpolate a b w ∧ interpolate a b w ≤ a) := by
  obtain ⟨low, high⟩ := interpolate_bounds a b w
  refine ⟨fun h => ?_, fun h => ?_⟩
  · have least : 0 ≤ (b - a) * w := by positivity
    have most : (b - a) * w ≤ (b - a) * 4096 := mul_le_mul_of_nonneg_left (by omega) (by omega)
    omega
  · have least : 0 ≤ (a - b) * w := by positivity
    have most : (a - b) * w ≤ (a - b) * 4096 := mul_le_mul_of_nonneg_left (by omega) (by omega)
    have flip : (b - a) * w = -((a - b) * w) := by ring
    omega

/-! ### Samples (R5) -/

/-- A number of so many bits, read as a signed one. -/
def asSigned (n : Int) (bits : Nat) : Int := if n < 2 ^ (bits - 1) then n else n - 2 ^ bits

theorem toInt_byte (b : Byte) : b.toInt = asSigned b.toNat 8 := by
  unfold asSigned
  rw [BitVec.toInt_eq_toNat_cond]
  split <;> split <;> omega

theorem toInt_half (h : Half) : h.toInt = asSigned h.toNat 16 := by
  unfold asSigned
  rw [BitVec.toInt_eq_toNat_cond]
  split <;> split <;> omega

theorem toNat_append_bytes (a b : Byte) : (a ++ b : Half).toNat = a.toNat * 256 + b.toNat := by
  have hb := b.isLt
  rw [BitVec.toNat_append, Nat.shiftLeft_eq, Nat.mul_comm, ← Nat.two_pow_add_eq_or_of_lt hb a.toNat, Nat.mul_comm]

section

variable {m : Memory} {r : ClipRecord}

theorem readSample_s8 (h : r.format = .s8) (i : Nat) :
    readSample m r i = asSigned (Memory.read m (r.base + i)).toNat 8 * 256 := by
  unfold readSample
  rw [h]
  dsimp only
  rw [toInt_byte]

theorem readSample_u8 (h : r.format = .u8) (i : Nat) :
    readSample m r i = ((Memory.read m (r.base + i)).toNat - 128 : Int) * 256 := by
  unfold readSample
  rw [h]

theorem readSample_s16 (h : r.format = .s16) (i : Nat) :
    readSample m r i = asSigned ((Memory.read m (r.base + 2 * i)).toNat * 256
      + (Memory.read m (r.base + (2 * i + 1))).toNat) 16 := by
  unfold readSample
  rw [h]
  dsimp only
  rw [toInt_half, toNat_append_bytes]
  push_cast
  rfl

end

/-! ### The current sample, its weight and its neighbour (R4) -/

section

variable {x : Sounding} {r : ClipRecord} {l : Loop}

theorem Sounding.current_eq (x : Sounding) :
    x.current = if x.direction = .forward ∨ x.pos % 4096 = 0 then x.pos / 4096 else x.pos / 4096 + 1 := by
  unfold Sounding.current Sounding.int Sounding.frac
  cases x.direction <;> simp

theorem Sounding.weight_eq (x : Sounding) :
    x.weight = if x.direction = .forward then x.pos % 4096 else if x.pos % 4096 = 0 then 0 else 4096 - x.pos % 4096 := by
  unfold Sounding.weight Sounding.frac
  cases x.direction <;> simp

theorem Sounding.loopActive_iff (x : Sounding) (l : Loop) :
    x.loopActive l = true ↔ x.pos / 4096 ≤ l.finish ∧ x.exit = false ∧ x.loops ≠ 1 := by
  unfold Sounding.loopActive Sounding.int
  simp [and_assoc]

theorem Sounding.neighbour_of_forward (hd : x.direction = .forward) : x.neighbour r = x.neighbourForward r := by
  unfold Sounding.neighbour
  rw [hd]

theorem Sounding.neighbour_of_backward (hd : x.direction ≠ .forward) : x.neighbour r = x.neighbourBackward r := by
  unfold Sounding.neighbour
  cases h : x.direction with
  | forward => exact absurd h hd
  | backward => rfl

theorem Sounding.neighbour_last (hd : x.direction = .forward) (hc : x.current + 1 = r.count) :
    x.neighbour r = x.current := by
  rw [Sounding.neighbour_of_forward hd]
  exact if_pos hc

theorem Sounding.neighbour_wraps (hd : x.direction = .forward) (hc : x.current + 1 ≠ r.count) (hl : r.loop = some l)
    (he : x.current = l.finish) (ha : x.loopActive l = true) (hm : x.loopMode = .forward) : x.neighbour r = l.start := by
  rw [Sounding.neighbour_of_forward hd]
  unfold Sounding.neighbourForward
  dsimp only
  rw [if_neg hc, hm, hl]
  exact if_pos ⟨he, ha⟩

theorem Sounding.neighbour_turns (hd : x.direction = .forward) (hc : x.current + 1 ≠ r.count) (hl : r.loop = some l)
    (he : x.current = l.finish) (ha : x.loopActive l = true) (hm : x.loopMode = .alternate) :
    x.neighbour r = x.current := by
  rw [Sounding.neighbour_of_forward hd]
  unfold Sounding.neighbourForward
  dsimp only
  rw [if_neg hc, hm, hl]
  exact if_pos ⟨he, ha⟩

/-- Away from an active loop end the next sample is the neighbour. -/
theorem Sounding.neighbour_next (hd : x.direction = .forward) (hc : x.current + 1 ≠ r.count)
    (h : x.loopMode = .none ∨ ∀ l, r.loop = some l → ¬(x.current = l.finish ∧ x.loopActive l = true)) :
    x.neighbour r = x.current + 1 := by
  rw [Sounding.neighbour_of_forward hd]
  unfold Sounding.neighbourForward
  dsimp only
  rw [if_neg hc]
  split
  · next l hm hl => exact if_neg (h.resolve_left (by rw [hm]; decide) l hl)
  · next l hm hl => exact if_neg (h.resolve_left (by rw [hm]; decide) l hl)
  · rfl

theorem Sounding.neighbour_first (hd : x.direction ≠ .forward) (hc : x.current = 0) : x.neighbour r = x.current := by
  rw [Sounding.neighbour_of_backward hd]
  exact if_pos hc

theorem Sounding.neighbour_turns_back (hd : x.direction ≠ .forward) (hc : x.current ≠ 0) (hl : r.loop = some l)
    (hm : x.loopMode = .alternate) (hs : x.current = l.start) : x.neighbour r = x.current := by
  rw [Sounding.neighbour_of_backward hd]
  unfold Sounding.neighbourBackward
  dsimp only
  rw [if_neg hc, hm, hl]
  exact if_pos hs

theorem Sounding.neighbour_previous (hd : x.direction ≠ .forward) (hc : x.current ≠ 0)
    (h : x.loopMode ≠ .alternate ∨ ∀ l, r.loop = some l → x.current ≠ l.start) : x.neighbour r = x.current - 1 := by
  rw [Sounding.neighbour_of_backward hd]
  unfold Sounding.neighbourBackward
  dsimp only
  rw [if_neg hc]
  split
  · next l hm hl => exact if_neg (h.resolve_left (not_not.2 hm) l hl)
  · rfl

/-- The frame's sample from its neighbour. -/
theorem frameSample_between (m : Memory) {n : Nat} (h : x.neighbour r = n) :
    frameSample m r x = interpolate (readSample m r x.current) (readSample m r n) x.weight := by
  unfold frameSample
  rw [h]

theorem frameSample_alone (m : Memory) (h : x.neighbour r = x.current) : frameSample m r x = readSample m r x.current := by
  rw [frameSample_between m h, interpolate_same]

end

end Sys2Proof.Machine
end

section
/-! PROOFS. The advance of a position: the crossings of a loop's ends one after another, until it stands, and the clip's end
(R3, R6 to R10). -/

namespace Sys2Proof.Machine

/-! ### The crossings of a loop's ends (R8, R9) -/

section

variable {x : Sounding} {l : Loop}

theorem Sounding.crossing_forward_stands {p : Int} {k : Nat} (h : p < (l.finish + 1) * 4096 ∨ x.exit = true ∨ k = 1) :
    x.crossing l (.forward, p, k) = none := if_pos h

theorem Sounding.crossing_wraps {p : Int} {k : Nat} (h : ¬(p < (l.finish + 1) * 4096 ∨ x.exit = true ∨ k = 1))
    (hm : x.loopMode = .forward) :
    x.crossing l (.forward, p, k) = some (.forward, p - (l.finish - l.start + 1) * 4096, loopsAfter k) := by
  unfold Sounding.crossing
  dsimp only
  rw [if_neg h, hm]
  rfl

theorem Sounding.crossing_turns {p : Int} {k : Nat} (h : ¬(p < (l.finish + 1) * 4096 ∨ x.exit = true ∨ k = 1))
    (hm : x.loopMode = .alternate) :
    x.crossing l (.forward, p, k) = some (.backward, 2 * l.finish * 4096 - p, loopsAfter k) := by
  unfold Sounding.crossing
  dsimp only
  rw [if_neg h, hm]
  rfl

theorem Sounding.crossing_backward_stands {p : Int} {k : Nat} (h : l.start * 4096 ≤ p ∨ x.loopMode ≠ .alternate) :
    x.crossing l (.backward, p, k) = none := if_pos h

theorem Sounding.crossing_turns_back {p : Int} {k : Nat} (h : ¬(l.start * 4096 ≤ p ∨ x.loopMode ≠ .alternate)) :
    x.crossing l (.backward, p, k) = some (.forward, 2 * l.start * 4096 - p, k) := if_neg h

/-- What a crossing can be: the wrap or the turn at LE, or the turn at LS. -/
inductive Crosses (x : Sounding) (l : Loop) : Direction × Int × Nat → Direction × Int × Nat → Prop
  | wrap {p : Int} {k : Nat} (mode : x.loopMode = .forward) (beyond : (l.finish + 1) * 4096 ≤ p) :
      Crosses x l (.forward, p, k) (.forward, p - (l.finish - l.start + 1) * 4096, loopsAfter k)
  | turn {p : Int} {k : Nat} (mode : x.loopMode = .alternate) (beyond : (l.finish + 1) * 4096 ≤ p) :
      Crosses x l (.forward, p, k) (.backward, 2 * l.finish * 4096 - p, loopsAfter k)
  | turnBack {p : Int} {k : Nat} (mode : x.loopMode = .alternate) (beyond : p < l.start * 4096) :
      Crosses x l (.backward, p, k) (.forward, 2 * l.start * 4096 - p, k)

theorem Sounding.crosses {a b : Direction × Int × Nat} (h : x.crossing l a = some b) : Crosses x l a b := by
  obtain ⟨d, p, k⟩ := a
  cases d with
  | forward =>
    by_cases stands : p < (l.finish + 1) * 4096 ∨ x.exit = true ∨ k = 1
    · rw [Sounding.crossing_forward_stands stands] at h
      cases h
    · have beyond : (l.finish + 1) * 4096 ≤ p := not_lt.1 (not_or.1 stands).1
      cases mode : x.loopMode with
      | none =>
        unfold Sounding.crossing at h
        dsimp only at h
        rw [if_neg stands, mode] at h
        cases h
      | forward =>
        rw [Sounding.crossing_wraps stands mode] at h
        cases h
        exact .wrap mode beyond
      | alternate =>
        rw [Sounding.crossing_turns stands mode] at h
        cases h
        exact .turn mode beyond
  | backward =>
    by_cases stands : l.start * 4096 ≤ p ∨ x.loopMode ≠ .alternate
    · rw [Sounding.crossing_backward_stands stands] at h
      cases h
    · rw [Sounding.crossing_turns_back stands] at h
      cases h
      obtain ⟨beyond, mode⟩ := not_or.1 stands
      exact .turnBack (not_not.1 mode) (not_le.1 beyond)

/-- What every crossing keeps holds where the series of crossings stands (R10). -/
theorem Sounding.comesTo_keeps {P : Direction × Int × Nat → Prop} (keeps : ∀ a b, P a → Crosses x l a b → P b) {n : Nat}
    {a b : Direction × Int × Nat} (h : x.comesTo l n a b) (ha : P a) : P b ∧ x.crossing l b = none := by
  induction n generalizing a with
  | zero =>
    obtain ⟨rfl, stands⟩ := h
    exact ⟨ha, stands⟩
  | succ n ih =>
    obtain ⟨c, hc, hn⟩ := h
    exact ih hn (keeps a c ha (Sounding.crosses hc))

/-! ### The series of crossings (R10) -/

/-- At most `n` crossings, one after another, until the position stands. -/
def Sounding.series (x : Sounding) (l : Loop) : Nat → Direction × Int × Nat → Direction × Int × Nat
  | 0, a => a
  | n + 1, a => match x.crossing l a with
    | none => a
    | some b => x.series l n b

theorem Sounding.series_stands {n : Nat} {a : Direction × Int × Nat} (h : x.crossing l a = none) :
    x.series l (n + 1) a = a := by
  unfold Sounding.series
  rw [h]

theorem Sounding.series_crosses {n : Nat} {a b : Direction × Int × Nat} (h : x.crossing l a = some b) :
    x.series l (n + 1) a = x.series l n b := by
  conv => lhs; unfold Sounding.series
  rw [h]

/-- The model's series at LE of a FORWARD loop. -/
theorem wrapSeries_eq (hl : l.start < l.finish) (hm : x.loopMode = .forward) (n : Nat) (p : Int) (k : Nat) :
    (Direction.forward, wrapSeries l x.exit n p k) = x.series l n (.forward, p, k) := by
  induction n generalizing p k with
  | zero => rfl
  | succ n ih =>
    unfold wrapSeries
    have le : (((l.finish + 1) * 4096 : Nat) : Int) = (l.finish + 1) * 4096 := by norm_num
    have length : (((l.finish - l.start + 1) * 4096 : Nat) : Int) = (l.finish - l.start + 1) * 4096 := by
      rw [Nat.cast_mul, Nat.cast_add, Nat.cast_sub hl.le]
      norm_num
    rw [le, length]
    by_cases below : p < (l.finish + 1) * 4096
    · rw [if_pos below, Sounding.series_stands (Sounding.crossing_forward_stands (.inl below))]
    · rw [if_neg below]
      by_cases leaves : x.exit = true ∨ k = 1
      · rw [if_pos (by simpa using leaves), Sounding.series_stands (Sounding.crossing_forward_stands (.inr leaves))]
      · rw [if_neg (by simpa using leaves), ih,
          Sounding.series_crosses (Sounding.crossing_wraps (not_or.2 ⟨below, leaves⟩) hm)]

/-- The model's series at LE and LS of an ALTERNATE loop. -/
theorem turnSeries_eq (hm : x.loopMode = .alternate) (n : Nat) (d : Direction) (p : Int) (k : Nat) :
    turnSeries l x.exit n d p k = x.series l n (d, p, k) := by
  induction n generalizing d p k with
  | zero => rfl
  | succ n ih =>
    cases d with
    | forward =>
      unfold turnSeries
      have le : (((l.finish + 1) * 4096 : Nat) : Int) = (l.finish + 1) * 4096 := by norm_num
      have twice : ((2 * l.finish * 4096 : Nat) : Int) = 2 * l.finish * 4096 := by norm_num
      rw [le, twice]
      by_cases below : p < (l.finish + 1) * 4096
      · rw [if_pos below, Sounding.series_stands (Sounding.crossing_forward_stands (.inl below))]
      · rw [if_neg below]
        by_cases leaves : x.exit = true ∨ k = 1
        · rw [if_pos (by simpa using leaves), Sounding.series_stands (Sounding.crossing_forward_stands (.inr leaves))]
        · rw [if_neg (by simpa using leaves), ih,
            Sounding.series_crosses (Sounding.crossing_turns (not_or.2 ⟨below, leaves⟩) hm)]
    | backward =>
      unfold turnSeries
      have ls : ((l.start * 4096 : Nat) : Int) = l.start * 4096 := by norm_num
      have twice : ((2 * l.start * 4096 : Nat) : Int) = 2 * l.start * 4096 := by norm_num
      rw [ls, twice]
      by_cases inside : l.start * 4096 ≤ p
      · rw [if_pos inside, Sounding.series_stands (Sounding.crossing_backward_stands (.inl inside))]
      · rw [if_neg inside, ih,
          Sounding.series_crosses (Sounding.crossing_turns_back (not_or.2 ⟨inside, not_not.2 hm⟩))]

/-- How far a position stands past the end that it moves to; each crossing takes at least a sample off it. -/
def overrun (l : Loop) : Direction × Int × Nat → Int
  | (.forward, p, _) => p - (l.finish + 1) * 4096
  | (.backward, p, _) => l.start * 4096 - p - 4096

theorem Crosses.overrun_falls {a b : Direction × Int × Nat} (hl : l.start < l.finish) (h : Crosses x l a b) :
    -4096 < overrun l a ∧ overrun l b + 4096 ≤ overrun l a := by
  cases h <;> dsimp only [overrun] <;> omega

/-- With fuel for its overrun the series comes to where the position stands. -/
theorem Sounding.comesTo_series (hl : l.start < l.finish) {n : Nat} {a : Direction × Int × Nat}
    (h : overrun l a + 4096 ≤ n * 4096) : ∃ k, x.comesTo l k a (x.series l n a) := by
  induction n generalizing a with
  | zero =>
    refine ⟨0, rfl, ?_⟩
    cases hc : x.crossing l a with
    | none => rfl
    | some b =>
      have := (Sounding.crosses hc).overrun_falls hl
      omega
  | succ n ih =>
    cases hc : x.crossing l a with
    | none => exact ⟨0, (Sounding.series_stands hc).symm, hc⟩
    | some b =>
      have := (Sounding.crosses hc).overrun_falls hl
      obtain ⟨k, hk⟩ := ih (a := b) (by push_cast at h; omega)
      exact ⟨k + 1, b, hc, by rw [Sounding.series_crosses hc]; exact hk⟩

end

/-! ### The advance of a start (R3, R6 to R10) -/

section

variable {x : Sounding} {r : ClipRecord} {l : Loop}

/-- The advance from the direction, position and loops that stand after the loop rules. -/
theorem Sounding.advance_of_applyLoop {d : Direction} {p : Int} {k : Nat} (h : applyLoop x r x.stepped = (d, p, k)) :
    x.advance r = if (d = .forward ∧ r.count * 4096 ≤ p) ∨ (d = .backward ∧ p < 0) then none
      else some { x with direction := d, pos := p.toNat, loops := k } := by
  have ends : clipEnds r d p = true ↔ (d = .forward ∧ r.count * 4096 ≤ p) ∨ (d = .backward ∧ p < 0) := by
    unfold clipEnds
    cases d <;> simp
  unfold Sounding.advance
  rw [h]
  simp only [ends]

theorem Sounding.stepped_eq (x : Sounding) :
    x.stepped = if x.direction = .forward then (x.pos : Int) + x.step else x.pos - x.step := by
  unfold Sounding.stepped
  cases x.direction <;> simp

/-- Outside a loop the position moves by the step (R6, R7). -/
theorem applyLoop_none (h : x.loopMode = .none) (p : Int) : applyLoop x r p = (x.direction, p, x.loops) := by
  unfold applyLoop
  rw [h]

/-- A forward position that already stood above LE does not cross it (R8). -/
theorem applyLoop_beyond (hl : r.loop = some l) (hd : x.direction = .forward) (h : (l.finish + 1) * 4096 ≤ x.pos) (p : Int) :
    applyLoop x r p = (.forward, p, x.loops) := by
  have beyond : ¬x.int ≤ l.finish := by unfold Sounding.int; omega
  unfold applyLoop
  rw [hl, hd]
  cases x.loopMode with
  | none => rfl
  | forward => exact if_neg beyond
  | alternate => exact if_neg beyond

/-- In a loop the crossings are applied until the position stands (R8 to R10). -/
theorem applyLoop_series (hlt : l.start < l.finish) (hl : r.loop = some l) (hm : x.loopMode ≠ .none)
    (hd : x.direction = .forward ∧ x.pos < (l.finish + 1) * 4096 ∨ x.direction = .backward ∧ x.loopMode = .alternate) (p : Int) :
    applyLoop x r p = x.series l loopFuel (x.direction, p, x.loops) := by
  unfold applyLoop
  rw [hl]
  rcases hd with ⟨hd, h⟩ | ⟨hd, h⟩
  · have inside : x.int ≤ l.finish := by unfold Sounding.int; omega
    rw [hd]
    cases mode : x.loopMode with
    | none => exact absurd mode hm
    | forward =>
      rw [← wrapSeries_eq hlt mode]
      exact if_pos inside
    | alternate =>
      rw [← turnSeries_eq mode]
      exact if_pos inside
  · rw [hd, h, ← turnSeries_eq h]

/-- The crossings that the advance applies end where the position stands (R10). -/
theorem Sounding.advance_comesTo (hs : x.step ≤ 65535) (hm : x.loopMode ≠ .none) (hl : r.loop = some l)
    (hlt : l.start < l.finish)
    (hd : x.direction = .forward ∧ x.pos < (l.finish + 1) * 4096
      ∨ x.direction = .backward ∧ x.loopMode = .alternate ∧ l.start * 4096 ≤ x.pos) :
    ∃ n d k, ∃ p : Int, x.comesTo l n (x.direction, x.stepped, x.loops) (d, p, k)
      ∧ x.advance r = if (d = .forward ∧ r.count * 4096 ≤ p) ∨ (d = .backward ∧ p < 0) then none
          else some { x with direction := d, pos := p.toNat, loops := k } := by
  have applied := applyLoop_series (p := x.stepped) hlt hl hm (hd.imp_right fun h => ⟨h.1, h.2.1⟩)
  have within : overrun l (x.direction, x.stepped, x.loops) + 4096 ≤ loopFuel * 4096 := by
    rw [Sounding.stepped_eq]
    rcases hd with ⟨hd, h⟩ | ⟨hd, _, h⟩ <;> rw [hd] <;> simp [overrun, loopFuel] <;> omega
  obtain ⟨n, comes⟩ := Sounding.comesTo_series (x := x) hlt within
  rw [← applied] at comes
  exact ⟨n, _, _, _, comes, Sounding.advance_of_applyLoop rfl⟩

/-- A forward position that no loop rule moves ends at the clip's end (R6). -/
theorem Sounding.advance_forward (hd : x.direction = .forward) (h : applyLoop x r x.stepped = (.forward, x.stepped, x.loops)) :
    x.advance r = if r.count * 4096 ≤ x.pos + x.step then none else some { x with pos := x.pos + x.step } := by
  have moved : x.stepped = ((x.pos + x.step : Nat) : Int) := by rw [Sounding.stepped_eq, if_pos hd]; norm_num
  rw [Sounding.advance_of_applyLoop h, moved, ← hd]
  by_cases ends : r.count * 4096 ≤ x.pos + x.step
  · rw [if_pos ends, if_pos (.inl ⟨rfl, by exact_mod_cast ends⟩)]
  · rw [if_neg ends, if_neg]
    · rfl
    · rintro (⟨-, h⟩ | ⟨h, -⟩)
      · exact ends (by exact_mod_cast h)
      · rw [hd] at h
        cases h

/-- A backward position outside a loop ends below 0 (R7). -/
theorem Sounding.advance_backward (hm : x.loopMode = .none) (hd : x.direction = .backward) :
    x.advance r = if x.pos < x.step then none else some { x with pos := x.pos - x.step } := by
  have moved : x.stepped = (x.pos : Int) - x.step := by rw [Sounding.stepped_eq, hd]; rfl
  rw [Sounding.advance_of_applyLoop (applyLoop_none hm _), moved]
  by_cases ends : x.pos < x.step
  · rw [if_pos ends, if_pos (.inr ⟨hd, by omega⟩)]
  · rw [if_neg ends, if_neg]
    · rw [show ((x.pos : Int) - x.step).toNat = x.pos - x.step by omega]
    · rintro (⟨h, -⟩ | ⟨-, h⟩)
      · rw [hd] at h
        cases h
      · omega

/-! ### Endless loops (R8, R9) -/

theorem Direction.eq_or (d : Direction) : d = .forward ∨ d = .backward := by cases d <;> simp

/-- A forward position that stands in a loop not left stands at or below LE. -/
theorem Sounding.below_of_stands {p : Int} {k : Nat} (he : x.exit = false) (hk : k ≠ 1) (hm : x.loopMode ≠ .none)
    (h : x.crossing l (.forward, p, k) = none) : p < (l.finish + 1) * 4096 := by
  by_contra beyond
  have crosses : ¬(p < (l.finish + 1) * 4096 ∨ x.exit = true ∨ k = 1) := by simp [beyond, he, hk]
  cases mode : x.loopMode with
  | none => exact hm mode
  | forward => rw [Sounding.crossing_wraps crosses mode] at h; cases h
  | alternate => rw [Sounding.crossing_turns crosses mode] at h; cases h

/-- A backward position that stands in an ALTERNATE loop stands at or above LS. -/
theorem Sounding.above_of_stands {p : Int} {k : Nat} (hm : x.loopMode = .alternate)
    (h : x.crossing l (.backward, p, k) = none) : l.start * 4096 ≤ p := by
  by_contra below
  rw [Sounding.crossing_turns_back (by simp [below, hm])] at h
  cases h

/-- What an endless FORWARD loop makes of a position: it has gone back by whole loop lengths, and not below LS. -/
def WrappedFrom (l : Loop) (start : Int) : Direction × Int × Nat → Prop
  | (d, p, k) => d = .forward ∧ k = 0 ∧ (p = start ∨ l.start * 4096 ≤ p)
      ∧ ∃ j : Nat, p + j * ((l.finish - l.start + 1) * 4096) = start

theorem wrappedFrom_keeps (hm : x.loopMode = .forward) {start : Int} (a b : Direction × Int × Nat)
    (h : WrappedFrom l start a) (hc : Crosses x l a b) : WrappedFrom l start b := by
  cases hc with
  | wrap mode beyond =>
    obtain ⟨-, rfl, -, j, hj⟩ := h
    refine ⟨rfl, rfl, .inr (by omega), j + 1, ?_⟩
    rw [← hj]
    push_cast
    ring
  | turn mode beyond => rw [hm] at mode; cases mode
  | turnBack mode beyond => rw [hm] at mode; cases mode

/-- What an endless ALTERNATE loop makes of a position: forward from 0 up, backward from below LE. -/
def TurnedWithin (l : Loop) : Direction × Int × Nat → Prop
  | (.forward, p, k) => k = 0 ∧ 0 ≤ p
  | (.backward, p, k) => k = 0 ∧ p < (l.finish + 1) * 4096

theorem turnedWithin_keeps (hm : x.loopMode = .alternate) (a b : Direction × Int × Nat) (h : TurnedWithin l a)
    (hc : Crosses x l a b) : TurnedWithin l b := by
  cases hc with
  | wrap mode beyond => rw [hm] at mode; cases mode
  | turn mode beyond =>
    obtain ⟨rfl, -⟩ := h
    exact ⟨rfl, by omega⟩
  | turnBack mode beyond =>
    obtain ⟨rfl, -⟩ := h
    exact ⟨rfl, by omega⟩

/-- An endless FORWARD loop keeps the position at or below LE, and goes back by whole loop lengths (R8). -/
theorem Sounding.advance_endless_forward (hs : x.step ≤ 65535) (hl : r.loop = some l) (hlt : l.start < l.finish)
    (hc : l.finish < r.count) (he : x.exit = false) (hk : x.loops = 0) (hp : x.pos < (l.finish + 1) * 4096)
    (hm : x.loopMode = .forward) (hd : x.direction = .forward) :
    ∃ p, x.advance r = some { x with pos := p } ∧ p < (l.finish + 1) * 4096
      ∧ (p = x.pos + x.step ∨ l.start * 4096 ≤ p)
      ∧ ∃ k, p + k * ((l.finish - l.start + 1) * 4096) = x.pos + x.step := by
  have hm' : x.loopMode ≠ .none := by rw [hm]; decide
  obtain ⟨n, d, k, p, comes, advance⟩ := Sounding.advance_comesTo hs hm' hl hlt (.inl ⟨hd, hp⟩)
  have start : x.stepped = (x.pos : Int) + x.step := by rw [Sounding.stepped_eq, if_pos hd]
  obtain ⟨⟨rfl, rfl, low, j, hj⟩, stands⟩ := Sounding.comesTo_keeps (P := WrappedFrom l x.stepped) (wrappedFrom_keeps hm)
    comes ⟨hd, hk, .inl rfl, 0, by simp⟩
  have below := Sounding.below_of_stands he (by decide) hm' stands
  rw [start] at low hj
  have nonneg : 0 ≤ p := by omega
  obtain ⟨q, rfl⟩ := Int.eq_ofNat_of_zero_le nonneg
  refine ⟨q, ?_, by omega, by omega, j, ?_⟩
  · rw [advance, if_neg (by simp; omega), ← hd, ← hk]
    rfl
  · have length : ((l.finish - l.start + 1 : Nat) : Int) = l.finish - l.start + 1 := by omega
    zify
    rw [← hj, ← length]
    push_cast
    ring

/-- An endless ALTERNATE loop keeps the position between its ends (R9). -/
theorem Sounding.advance_endless_alternate (hs : x.step ≤ 65535) (hl : r.loop = some l) (hlt : l.start < l.finish)
    (hc : l.finish < r.count) (he : x.exit = false) (hk : x.loops = 0) (hp : x.pos < (l.finish + 1) * 4096)
    (hm : x.loopMode = .alternate) (hb : x.direction = .backward → l.start * 4096 ≤ x.pos) :
    ∃ p d, x.advance r = some { x with pos := p, direction := d } ∧ p < (l.finish + 1) * 4096
      ∧ (d = .backward → l.start * 4096 ≤ p) := by
  have hm' : x.loopMode ≠ .none := by rw [hm]; decide
  obtain ⟨n, d, k, p, comes, advance⟩ := Sounding.advance_comesTo hs hm' hl hlt
    ((Direction.eq_or x.direction).imp (fun h => ⟨h, hp⟩) fun h => ⟨h, hm, hb h⟩)
  have starts : TurnedWithin l (x.direction, x.stepped, x.loops) := by
    rw [Sounding.stepped_eq]
    rcases Direction.eq_or x.direction with h | h <;> rw [h] <;> exact ⟨hk, by simp; omega⟩
  obtain ⟨within, stands⟩ := Sounding.comesTo_keeps (turnedWithin_keeps hm) comes starts
  cases d with
  | forward =>
    obtain ⟨rfl, nonneg⟩ := within
    have below := Sounding.below_of_stands he (by decide) hm' stands
    refine ⟨p.toNat, .forward, ?_, by omega, fun h => by cases h⟩
    rw [advance, if_neg (by simp; omega), ← hk]
  | backward =>
    obtain ⟨rfl, below⟩ := within
    have above := Sounding.above_of_stands hm stands
    refine ⟨p.toNat, .backward, ?_, by omega, fun _ => by omega⟩
    rw [advance, if_neg (by simp; omega), ← hk]

end

/-! ### The statement -/

/-- The rows of R4, for the current sample, its neighbour and its weight as the statement writes them. -/
theorem frameSample_rows (m : Memory) (r : ClipRecord) (x : Sounding) :
    let forward := x.direction = .forward
    let active (l : Loop) : Prop := x.pos / 4096 ≤ l.finish ∧ x.exit = false ∧ x.loops ≠ 1
    let between (n : Nat) : Prop :=
      frameSample m r x = interpolate (readSample m r x.current) (readSample m r n) x.weight
    let alone : Prop := frameSample m r x = readSample m r x.current
    (forward → x.current + 1 = r.count → alone)
    ∧ (∀ l, forward → x.current + 1 ≠ r.count → r.loop = some l → x.current = l.finish → active l →
        (x.loopMode = .forward → between l.start) ∧ (x.loopMode = .alternate → alone))
    ∧ (forward → x.current + 1 ≠ r.count →
        (x.loopMode = .none ∨ ∀ l, r.loop = some l → x.current ≠ l.finish ∨ ¬active l) → between (x.current + 1))
    ∧ (¬forward → x.current = 0 → alone)
    ∧ (∀ l, ¬forward → x.current ≠ 0 → r.loop = some l → x.loopMode = .alternate → x.current = l.start → alone)
    ∧ (¬forward → x.current ≠ 0 → (x.loopMode ≠ .alternate ∨ ∀ l, r.loop = some l → x.current ≠ l.start) →
        between (x.current - 1)) := by
  refine ⟨fun hd hc => frameSample_alone m (Sounding.neighbour_last hd hc), fun l hd hc hl he ha => ?_,
    fun hd hc h => frameSample_between m (Sounding.neighbour_next hd hc ?_),
    fun hd hc => frameSample_alone m (Sounding.neighbour_first hd hc),
    fun l hd hc hl hm hs => frameSample_alone m (Sounding.neighbour_turns_back hd hc hl hm hs),
    fun hd hc h => frameSample_between m (Sounding.neighbour_previous hd hc h)⟩
  · have active := (Sounding.loopActive_iff x l).2 ha
    exact ⟨fun hm => frameSample_between m (Sounding.neighbour_wraps hd hc hl he active hm),
      fun hm => frameSample_alone m (Sounding.neighbour_turns hd hc hl he active hm)⟩
  · refine h.imp_right fun h l hl => ?_
    rw [Sounding.loopActive_iff, not_and_or]
    exact h l hl

/-- Settles O40: interpolation, samples, the rows of R4, the crossings, and the endless loops. -/
theorem interpolationAndAdvance : Obligations.InterpolationAndAdvance := by
  unfold Obligations.InterpolationAndAdvance
  refine ⟨fun a b w hw => ?_, fun m r i => ⟨fun h => readSample_s8 h i, fun h => readSample_u8 h i,
      fun h => readSample_s16 h i⟩, fun m r x => ?_, fun x r l hs hm hl hlt hc hd => ⟨fun hf above => ?_, fun inside => ?_⟩,
    fun x r hs => ⟨fun hm hd => ?_, fun hm hd => Sounding.advance_backward hm hd,
      fun l hl hlt hc he hk hp => ⟨fun hm hd => ?_, fun hm hb => ?_⟩⟩⟩
  · obtain ⟨low, high⟩ := interpolate_bounds a b w
    obtain ⟨up, down⟩ := interpolate_between (a := a) (b := b) hw
    exact ⟨low, high, up, down, interpolate_zero a b⟩
  · have rows := frameSample_rows m r x
    rw [Sounding.current_eq, Sounding.weight_eq] at rows
    exact rows
  · exact Sounding.advance_forward hf (applyLoop_beyond hl hf above _)
  · rw [← Sounding.stepped_eq]
    refine Sounding.advance_comesTo hs hm hl hlt ?_
    rcases Direction.eq_or x.direction with forward | backward
    · exact .inl ⟨forward, inside.resolve_left (by rw [forward]; decide)⟩
    · exact .inr ⟨backward, hd.resolve_left (by rw [backward]; decide)⟩
  · exact Sounding.advance_forward hd (by rw [applyLoop_none hm, hd])
  · exact Sounding.advance_endless_forward hs hl hlt hc he hk hp hm hd
  · exact Sounding.advance_endless_alternate hs hl hlt hc he hk hp hm hb

end Sys2Proof.Machine
end

section
/-! PROOFS. The level law, its gains found bit by bit, and panning (R24 to R26). -/

namespace Sys2Proof.Machine

/-! ### The level law (R24) -/

/-- The gain of a level before it is rounded (R24). -/
noncomputable def exactGain (level : Nat) : ℝ := (65536 : ℝ) * (2 : ℝ) ^ (((level : ℝ) - 4095) / 256)

theorem exactGain_pos (level : Nat) : 0 < exactGain level := by
  unfold exactGain
  positivity

theorem exactGain_full : exactGain 4095 = 65536 := by simp [exactGain]

theorem exactGain_mono {k level : Nat} (h : k ≤ level) : exactGain k ≤ exactGain level := by
  unfold exactGain
  gcongr
  norm_num

/-- 256 levels double the gain, so the power 256 of a gain has no fractions left. -/
theorem exactGain_pow (level : Nat) : (2 * exactGain level) ^ 256 = 2 ^ (level + 257) := by
  have power : 2 * exactGain level = (2 : ℝ) ^ (((level : ℝ) + 257) / 256) := by
    rw [exactGain, ← mul_assoc, show (2 : ℝ) * 65536 = 2 ^ (17 : ℝ) by norm_num, ← Real.rpow_add (by norm_num)]
    congr 1
    ring
  rw [power, ← Real.rpow_natCast, ← Real.rpow_natCast, ← Real.rpow_mul (by norm_num)]
  congr 1
  push_cast
  ring

/-- The test of whole numbers says what R24 asks of a rounded gain. -/
theorem gainAtMost_iff (level g : Nat) : gainAtMost level g = true ↔ (g : ℝ) ≤ exactGain level + 1 / 2 := by
  have pos := exactGain_pos level
  unfold gainAtMost
  rw [decide_eq_true_iff]
  cases g with
  | zero => simp; positivity
  | succ n =>
    have odd : 2 * (n + 1) - 1 = 2 * n + 1 := by omega
    have powers : (2 * n + 1) ^ 256 ≤ 2 ^ (level + 257) ↔ (2 * n + 1 : ℝ) ^ 256 ≤ (2 * exactGain level) ^ 256 := by
      rw [exactGain_pow]
      exact_mod_cast Iff.rfl
    rw [odd, powers, pow_le_pow_iff_left₀ (by positivity) (by positivity) (by norm_num)]
    push_cast
    constructor <;> intro h <;> linarith

/-- The search keeps a value that passes, and stops where the next one does not. -/
theorem gainSearch_spec (level bits : Nat) : ∀ g, gainAtMost level g = true → gainAtMost level (g + 2 ^ bits) = false →
    gainAtMost level (gainSearch level bits g) = true ∧ gainAtMost level (gainSearch level bits g + 1) = false := by
  induction bits with
  | zero => exact fun g low high => ⟨low, high⟩
  | succ bits ih =>
    intro g low high
    unfold gainSearch
    by_cases mid : gainAtMost level (g + 2 ^ bits) = true
    · rw [if_pos mid]
      have twice : g + 2 ^ (bits + 1) = g + 2 ^ bits + 2 ^ bits := by omega
      exact ih _ mid (twice ▸ high)
    · rw [if_neg mid]
      exact ih g low (Bool.not_eq_true _ ▸ mid)

/-- The gain of a level is the exact one, rounded to the nearest whole number, a half upward (R24). -/
theorem gain_eq_floor {level : Nat} (low : 1 ≤ level) (high : level ≤ 4095) :
    (gain level : ℤ) = ⌊exactGain level + 1 / 2⌋ := by
  have most : exactGain level ≤ 65536 := exactGain_full ▸ exactGain_mono high
  have beyond : gainAtMost level (0 + 2 ^ 17) = false := by
    rw [← Bool.not_eq_true, gainAtMost_iff]
    norm_num
    linarith
  obtain ⟨passes, next⟩ := gainSearch_spec level 17 0 (by simp [gainAtMost]) beyond
  rw [← Bool.not_eq_true, gainAtMost_iff, not_le] at next
  rw [gainAtMost_iff] at passes
  rw [gain, if_neg (by omega), eq_comm, Int.floor_eq_iff]
  exact_mod_cast And.intro passes next

theorem gain_zero : gain 0 = 0 := if_pos rfl

theorem gain_pred_le {level : Nat} (high : level ≤ 4095) : gain (level - 1) ≤ gain level := by
  by_cases low : level ≤ 1
  · rw [show level - 1 = 0 by omega, gain_zero]
    exact Nat.zero_le _
  · have floors : (gain (level - 1) : ℤ) ≤ gain level := by
      rw [gain_eq_floor (by omega) (by omega), gain_eq_floor (by omega) high]
      exact Int.floor_le_floor (by linarith [exactGain_mono (Nat.sub_le level 1)])
    exact_mod_cast floors

/-- No level but 0 is silence. -/
theorem one_le_gain {level : Nat} (low : 1 ≤ level) (high : level ≤ 4095) : 1 ≤ gain level := by
  have one : gainAtMost level 1 = true := by simpa [gainAtMost] using Nat.one_le_two_pow
  rw [gainAtMost_iff] at one
  have floors : (1 : ℤ) ≤ gain level := by
    rw [gain_eq_floor low high, Int.le_floor]
    exact_mod_cast one
  exact_mod_cast floors

/-! ### Panning (R25) -/

theorem sideLevel_eq (level : Nat) (a : Option Nat) : sideLevel level a = (match a with
    | none => 0
    | some a => level - a) := by
  cases a <;> rfl

/-- Settles O39: the search of the gains meets the level law, and panning is what R25 and R26 write. -/
theorem gainAndPanning : Obligations.GainAndPanning := by
  unfold Obligations.GainAndPanning
  refine ⟨⟨gain_zero, by decide +kernel, by decide +kernel, by decide +kernel, fun L low high =>
      ⟨gain_eq_floor low high, one_le_gain low high, gain_pred_le high⟩⟩,
    by decide, fun sample level pan => ⟨sideLevel_eq .., sideLevel_eq .., rfl⟩⟩

end Sys2Proof.Machine
end

section
/-! PROOFS. A move instant of a ramp by its mode (R28 to R31), and the command of log 3 that takes a voice's frame ahead where its
ramp has one (R32, R34). -/

namespace Sys2Proof.Machine

/-! ### What a move instant makes of a level and its ramp (R28 to R31) -/

section

variable {level : Nat} {p : Ramp}

/-- Away from its target a ramp moves toward it; only a ONCE ramp that comes to it is done (R28, R29). -/
theorem moveInstant_towards (away : level ≠ p.target)
    (goesOn : p.mode ≠ .once ∨ moveToward level p.target p.rate ≠ p.target) :
    moveInstant level p = (moveToward level p.target p.rate, some p) := by
  unfold moveInstant
  rw [if_neg away, if_neg (by tauto)]

/-- A ONCE ramp arrives, by this move or because it stands there (R29). -/
theorem moveInstant_arrives (once : p.mode = .once)
    (there : level = p.target ∨ moveToward level p.target p.rate = p.target) : moveInstant level p = (p.target, none) := by
  unfold moveInstant
  by_cases stands : level = p.target
  · rw [if_pos stands, once, stands]
  · have comes := there.resolve_left stands
    rw [if_neg stands, if_pos ⟨once, comes⟩, comes]

/-- A CYCLE ramp at its target goes back to its base, with no move (R30). -/
theorem moveInstant_cycle (there : level = p.target) (cycle : p.mode = .cycle) : moveInstant level p = (p.base, some p) := by
  unfold moveInstant
  rw [if_pos there, cycle]

/-- A SWING ramp at its target turns round: base and target change places (R31). -/
theorem moveInstant_swing (there : level = p.target) (swing : p.mode = .swing) :
    moveInstant level p = (moveToward level p.base p.rate, some { p with base := p.target, target := p.base }) := by
  unfold moveInstant
  rw [if_pos there, swing]

end

/-! ### The ramp of a start whose clip does not end (R3 step 5) -/

section

variable {s : State} {v : Fin 16} {x y : Sounding} {r : ClipRecord} {p q : Ramp} {level : Nat}

theorem State.advanceRamp_goesOn (hp : y.ramp = some p) (hm : rampAdvance y.level p = (level, some q))
    (body : Sounding → VoiceBody) (releasing : Bool) :
    s.advanceRamp v y body releasing = s.setBody v (body { y with level := level, ramp := some q }) := by
  unfold State.advanceRamp
  simp only [hp, hm]

/-- The state of a voice whose ramp arrives, before a RELEASING start ends by it (R29 steps 1 and 2). -/
theorem State.advanceRamp_arrives (hp : y.ramp = some p) (hm : rampAdvance y.level p = (level, none))
    (body : Sounding → VoiceBody) (releasing : Bool) :
    let arrived := (s.rampArrives v y p level).setBody v (body { y with level := level, ramp := none })
    s.advanceRamp v y body releasing
      = if releasing then arrived.endFree v { y with level := level, ramp := none } .released else arrived := by
  unfold State.advanceRamp
  simp only [hp, hm]

/-- An arrival touches EVQ alone, and what EVQ makes of it does not depend on the voices' contributions (R29 step 1). -/
theorem State.rampArrives_setContribution (a : Int × Int) :
    (s.setContribution v a).rampArrives v x p level
      = { s.setContribution v a with evq := (s.rampArrives v x p level).evq } := by
  unfold State.rampArrives
  split
  · rw [State.post_eq, State.evq_post_congr (s := s) (t := s.setContribution v a) rfl rfl]
    rfl
  · rfl

/-- The end of a start does not read which start the voice's body holds (R13). -/
theorem State.endFree_setBody {b : VoiceBody} (h : (s.voice v).stands.isSome = true)
    (hb : (Voice.mk (s.voice v).generation b).stands.isSome = true) (x : Sounding) (e : EndReason) :
    (s.setBody v b).endFree v x e = s.endFree v x e := by
  have same : (s.setBody v b).voice v = ⟨(s.voice v).generation, b⟩ := by rw [State.voice_setBody, if_pos rfl]
  rw [State.endFree_eq h, State.endFree_eq (by rw [same]; exact hb), same,
    State.noted_congr (s := s) (t := s.setBody v b) rfl rfl, State.releaseClaim_eq, State.releaseClaim_eq,
    State.voices_setBody, Table.set_set_self]
  rfl

/-! ### The command (log 3) -/

theorem State.rampMovesNext_iff (hb : (s.voice v).body = .playing x ∨ (s.voice v).body = .releasing x)
    (hr : (s.clip x.clip).record = some r) (ha : x.advance r = some y) (hp : x.ramp = some p) :
    s.rampMovesNext v = true ↔ p.scale.frames ≤ p.sub + 1 := by
  unfold State.rampMovesNext State.startMovesNext Ramp.movesNext
  rcases hb with hb | hb <;> simp [hb, hr, ha, hp]

/-- RAMP_MOVE_INSTANT where no move instant comes has no effect (log 3). -/
theorem exec_rampMoveInstant_idle (h : s.rampMovesNext v = false) : exec (.rampMoveInstant v) s = .next s := by
  show Host.Outcome.next (s.rampAhead v) = _
  unfold State.rampAhead
  rw [if_neg (by simp [h])]

/-- RAMP_MOVE_INSTANT where one comes and the lower voices have taken the frame: the frame work of the voice (log 3). -/
theorem exec_rampMoveInstant (power : s.power = true) (turn : s.progress.voices = v.val) (h : s.rampMovesNext v = true) :
    exec (.rampMoveInstant v) s
      = .next { s.voiceFrame v with progress := { s.progress with voices := v.val + 1 } } := by
  show Host.Outcome.next (s.rampAhead v) = _
  unfold State.rampAhead State.voiceAhead
  rw [if_pos (by simp [power, turn, h]), State.voicesThrough_eq, turn, voicesFrom_self]
  rfl

/-- The state after the frame work of one voice, taken ahead: its contributions and its new body, and EVQ. -/
def State.workedVoice (s : State) (v : Fin 16) (gives : Int × Int) (now : VoiceBody) (e : Evq) : State :=
  { s with
    voices := s.voices.set v ⟨(s.voice v).generation, now⟩
    out := { s.out with contributions := s.out.contributions.set v gives }
    progress := { s.progress with voices := v.val + 1 }
    evq := e }

/-- A start that sounds on: it stays RELEASING where it was, and PLAYING otherwise. -/
def VoiceBody.soundsOn (body : VoiceBody) (x : Sounding) : VoiceBody :=
  match body with
  | .releasing _ => .releasing x
  | _ => .playing x

/-- The frame's advance of the position leaves the ramp, and a move instant is due (R3, R28). -/
theorem Sounding.rampAdvance_due (ha : x.advance r = some y) (hp : x.ramp = some p) (due : p.scale.frames ≤ p.sub + 1) :
    y.ramp = some p ∧ rampAdvance y.level p = moveInstant x.level { p with sub := 0 } := by
  rw [Sounding.advance_eq ha]
  exact ⟨hp, rampAdvance_moves (by omega) _⟩

section

variable (power : s.power = true) (turn : s.progress.voices = v.val) (hr : (s.clip x.clip).record = some r)
  (ha : x.advance r = some y) (hp : x.ramp = some p) (due : p.scale.frames ≤ p.sub + 1)

include power turn hr ha hp due

/-- A move instant after which the ramp goes on (R28, R30, R31). -/
theorem exec_rampMoveInstant_goesOn (hb : (s.voice v).body = .playing x ∨ (s.voice v).body = .releasing x)
    (hm : moveInstant x.level { p with sub := 0 } = (level, some q)) :
    exec (.rampMoveInstant v) s = .next (s.workedVoice v (soundingContribution s.mem r x)
      ((s.voice v).body.soundsOn { y with level := level, ramp := some q }) s.evq) := by
  obtain ⟨ramp, advance⟩ := Sounding.rampAdvance_due ha hp due
  rw [hm] at advance
  rw [exec_rampMoveInstant power turn ((State.rampMovesNext_iff hb hr ha hp).2 due)]
  rcases hb with hb | hb
  · rw [State.voiceFrame_playing hb hr ha, State.advanceRamp_goesOn ramp advance, hb]
    rfl
  · rw [State.voiceFrame_releasing hb hr ha, State.advanceRamp_goesOn ramp advance, hb]
    rfl

/-- The arrival of a PLAYING start's ramp (R29 steps 1 and 2). -/
theorem exec_rampMoveInstant_arrives (hb : (s.voice v).body = .playing x)
    (hm : moveInstant x.level { p with sub := 0 } = (level, none)) :
    exec (.rampMoveInstant v) s = .next (s.workedVoice v (soundingContribution s.mem r x)
      (.playing { y with level := level, ramp := none }) (s.rampArrives v x p level).evq) := by
  obtain ⟨ramp, advance⟩ := Sounding.rampAdvance_due ha hp due
  rw [hm] at advance
  rw [exec_rampMoveInstant power turn ((State.rampMovesNext_iff (.inl hb) hr ha hp).2 due),
    State.voiceFrame_playing hb hr ha, State.advanceRamp_arrives ramp advance, if_neg Bool.false_ne_true,
    State.rampArrives_setContribution, Sounding.advance_eq ha]
  rfl

/-- The arrival of a RELEASING start's ramp ends the start (R29 step 3, R13). -/
theorem exec_rampMoveInstant_ends (hb : (s.voice v).body = .releasing x)
    (hm : moveInstant x.level { p with sub := 0 } = (level, none)) :
    exec (.rampMoveInstant v) s = .next (State.workedVoice
      { s.releaseClaim x.clip with
        alc := { s.alc with age := s.alc.age.erase v, offerDue := true }
        signals := s.signals ++ [⟨v, (s.voice v).generation⟩] } v (soundingContribution s.mem r x) .free
      ((s.rampArrives v x p level).noted x.noteEnd v (s.voice v).generation 2 x.owner)) := by
  obtain ⟨ramp, advance⟩ := Sounding.rampAdvance_due ha hp due
  rw [hm] at advance
  have stands : (s.voice v).stands.isSome = true := by simp [Voice.stands, hb]
  rw [exec_rampMoveInstant power turn ((State.rampMovesNext_iff (.inr hb) hr ha hp).2 due),
    State.voiceFrame_releasing hb hr ha, State.advanceRamp_arrives ramp advance, if_pos rfl,
    State.rampArrives_setContribution, State.endFree_setBody (by exact stands) rfl, State.endFree_eq (by exact stands),
    State.noted_congr (s := s.rampArrives v x p level) (by rw [Sounding.advance_eq ha]; rfl)
      (by rw [State.out_rampArrives]; rfl),
    State.releaseClaim_eq, State.releaseClaim_eq, Sounding.advance_eq ha]
  rfl

end

end

/-- Settles O44: the move instant by the mode, and the frame work of the voice around it. -/
theorem rampMoveInstantByMode : Obligations.RampMoveInstantByMode := by
  unfold Obligations.RampMoveInstantByMode
  intro v x y r p s power turn hb hr ha hp
  dsimp only
  refine ⟨fun early => exec_rampMoveInstant_idle ?_, fun due => ?_⟩
  · rw [← Bool.not_eq_true, State.rampMovesNext_iff hb hr ha hp]
    omega
  · have goesOn {level : Nat} {q : Ramp} := exec_rampMoveInstant_goesOn (level := level) (q := q) power turn hr ha hp due hb
    refine ⟨fun away more => goesOn (moveInstant_towards away more), fun ⟨once, there⟩ playing => ?_,
      fun ⟨once, there⟩ releasing => ⟨s.releaseClaim x.clip, State.claimedLess_releaseClaim .., ?_⟩,
      fun there cycle => goesOn (moveInstant_cycle there cycle), fun there swing => goesOn (moveInstant_swing there swing)⟩
    · rw [exec_rampMoveInstant_arrives power turn hr ha hp due playing (moveInstant_arrives once there), playing]
      rfl
    · rw [exec_rampMoveInstant_ends power turn hr ha hp due releasing (moveInstant_arrives once there), State.releaseClaim_eq]
      rfl

end Sys2Proof.Machine
end

section
/-! PROOFS. The claims that stand, counted: what a claim taken or released makes of the use counts, and that every operation of the
voices, the allocator and the lanes keeps the age list and the use counts in their laws (R50, R52, R120, R122). -/

namespace Sys2Proof.Machine

/-! ### The use counts of some claims (R50, R120, R122) -/

/-- The use counts are the counts of these claims, and a clip in use is DEFINED: the law of the use counts, of any list of claims. -/
def State.counts (s : State) (l : List (Fin 64)) : Prop :=
  (∀ c : Fin 64, (s.clip c).useCount = l.count c)
  ∧ (∀ c : Fin 64, 0 < (s.clip c).useCount → (s.clip c).record.isSome = true)
  ∧ ∀ i : Fin 128, (s.sectors.get i).useCount = l.countP fun c => s.clipTouches c i

theorem State.useLaw_iff (s : State) : s.useLaw ↔ s.counts s.claims := Iff.rfl

theorem State.counts_perm {s : State} {l k : List (Fin 64)} (p : l.Perm k) (h : s.counts l) : s.counts k := by
  obtain ⟨clips, defined, sectors⟩ := h
  exact ⟨fun c => (clips c).trans (p.count_eq c), defined, fun i => (sectors i).trans (p.countP_eq _)⟩

/-- The law reads the clips and the sectors' use counts alone. -/
theorem State.counts_congr {s t : State} {l : List (Fin 64)} (hc : t.clips = s.clips)
    (hs : ∀ i, (t.sectors.get i).useCount = (s.sectors.get i).useCount) (h : s.counts l) : t.counts l := by
  have clip (c : Fin 64) : t.clip c = s.clip c := by unfold State.clip; rw [hc]
  obtain ⟨clips, defined, sectors⟩ := h
  refine ⟨fun c => by rw [clip]; exact clips c, fun c => by rw [clip]; exact defined c, fun i => ?_⟩
  unfold State.clipTouches
  simp only [hs, clip]
  exact sectors i

/-- A clip that some claim is for is DEFINED (R122). -/
theorem State.counts_defined {s : State} {l : List (Fin 64)} (h : s.counts l) {c : Fin 64} (hc : c ∈ l) :
    (s.clip c).record.isSome = true :=
  h.2.1 c (by rw [h.1]; exact List.count_pos_iff.2 hc)

theorem State.clipTouches_changeClaim (s : State) (f : Nat → Nat) (c d : Fin 64) (i : Fin 128) :
    (s.changeClaim f c).clipTouches d i = s.clipTouches d i := by
  unfold State.clipTouches
  rw [(Moves.claim s f c).untouched.records]

/-- The use counts after a claim of a clip has changed (R50). -/
theorem State.useCount_changeClaim (s : State) (f : Nat → Nat) (c : Fin 64) :
    (∀ d, ((s.changeClaim f c).clip d).useCount = if c = d then f (s.clip d).useCount else (s.clip d).useCount)
    ∧ ∀ i, ((s.changeClaim f c).sectors.get i).useCount
        = if s.clipTouches c i = true then f (s.sectors.get i).useCount else (s.sectors.get i).useCount := by
  refine ⟨fun d => ?_, fun i => ?_⟩
  · rw [State.clip_changeClaim]
    split
    · next e => subst e; rfl
    · rfl
  · rw [State.get_sectors_changeClaim]
    unfold State.clipTouches
    cases (s.clip c).record with
    | none => rfl
    | some r => dsimp only; split <;> rfl

/-- A claim taken for a DEFINED clip is one claim more (R50). -/
theorem State.counts_takeClaim {s : State} {l : List (Fin 64)} {c : Fin 64} (hc : (s.clip c).record.isSome = true)
    (h : s.counts l) : (s.takeClaim c).counts (c :: l) := by
  obtain ⟨clips, defined, sectors⟩ := h
  obtain ⟨clipUse, sectorUse⟩ := s.useCount_changeClaim (· + 1) c
  unfold State.takeClaim
  refine ⟨fun d => ?_, fun d hd => ?_, fun i => ?_⟩
  · rw [clipUse, List.count_cons, clips]
    by_cases e : c = d <;> simp [e]
  · rw [(Moves.claim s (· + 1) c).untouched.records]
    by_cases e : c = d
    · exact e ▸ hc
    · rw [clipUse, if_neg e] at hd
      exact defined d hd
  · rw [sectorUse, List.countP_cons, sectors]
    simp only [State.clipTouches_changeClaim]
    split <;> rfl

/-- A claim released is one claim less (R13 step 2, R19 step 2). -/
theorem State.counts_releaseClaim {s : State} {l : List (Fin 64)} {c : Fin 64} (h : s.counts (c :: l)) :
    (s.releaseClaim c).counts l := by
  obtain ⟨clips, defined, sectors⟩ := h
  obtain ⟨clipUse, sectorUse⟩ := s.useCount_changeClaim (· - 1) c
  unfold State.releaseClaim
  refine ⟨fun d => ?_, fun d hd => ?_, fun i => ?_⟩
  · rw [clipUse, clips, List.count_cons]
    by_cases e : c = d <;> simp [e]
  · rw [(Moves.claim s (· - 1) c).untouched.records]
    refine defined d ?_
    rw [clipUse] at hd
    split at hd <;> omega
  · rw [sectorUse, sectors, List.countP_cons]
    simp only [State.clipTouches_changeClaim]
    split <;> simp

/-! ### The claims of one voice and of the others -/

theorem mem_allVoices (x : Fin 16) : x ∈ allVoices := by
  revert x
  decide

/-- The claims of the voices but one. -/
def State.claimsBeside (s : State) (v : Fin 16) : List (Fin 64) := (allVoices.erase v).flatMap fun w => (s.voice w).claims

theorem State.claims_perm (s : State) (v : Fin 16) : s.claims.Perm ((s.voice v).claims ++ s.claimsBeside v) :=
  (List.perm_cons_erase (mem_allVoices v)).flatMap_right _

theorem State.claimsBeside_congr {s t : State} {v : Fin 16} {x : Voice} (h : t.voices = s.voices.set v x) :
    t.claimsBeside v = s.claimsBeside v := by
  have once : allVoices.Nodup := by decide
  refine List.flatMap_congr fun w hw => ?_
  unfold State.voice
  rw [h, Table.get_set_of_ne _ (Ne.symm (once.mem_erase_iff.1 hw).1)]

theorem State.claims_perm_set {s t : State} {v : Fin 16} {x : Voice} (h : t.voices = s.voices.set v x) :
    t.claims.Perm (x.claims ++ s.claimsBeside v) := by
  have voice : t.voice v = x := by unfold State.voice; rw [h, Table.get_set_self]
  rw [← State.claimsBeside_congr h, ← voice]
  exact t.claims_perm v

section

variable {s t : State} {v : Fin 16} {x : Voice} {c : Fin 64}

/-- A voice takes a claim for a DEFINED clip, and the use counts with it. -/
theorem State.useLaw_takes (hv : t.voices = s.voices.set v x) (hc : t.clips = (s.takeClaim c).clips)
    (hs : t.sectors = (s.takeClaim c).sectors) (hr : (s.clip c).record.isSome = true)
    (more : x.claims.Perm (c :: (s.voice v).claims)) (h : s.useLaw) : t.useLaw := by
  have claims : (c :: s.claims).Perm t.claims :=
    ((s.claims_perm v).cons c).trans ((more.append_right _).symm.trans (State.claims_perm_set hv).symm)
  exact State.counts_congr hc (fun i => by rw [hs]) (State.counts_perm claims (State.counts_takeClaim hr h))

/-- A voice lets go of a claim, and the use counts with it. -/
theorem State.useLaw_releases (hv : t.voices = s.voices.set v x) (hc : t.clips = (s.releaseClaim c).clips)
    (hs : t.sectors = (s.releaseClaim c).sectors) (less : (s.voice v).claims.Perm (c :: x.claims)) (h : s.useLaw) :
    t.useLaw := by
  have claims : s.claims.Perm (c :: t.claims) :=
    (s.claims_perm v).trans ((less.append_right _).trans ((State.claims_perm_set hv).symm.cons c))
  exact State.counts_congr hc (fun i => by rw [hs]) (State.counts_releaseClaim (State.counts_perm claims h))

end

theorem State.claims_congr {s t : State} (h : ∀ v, (t.voice v).claims = (s.voice v).claims) : t.claims = s.claims :=
  List.flatMap_congr fun v _ => h v

end Sys2Proof.Machine
end

section
/-! PROOFS. What every operation of the voices, the allocator and the lanes keeps: the age list and the use counts in their laws,
and the part's power and loading (R50, R52, R120, R122). -/

namespace Sys2Proof.Machine

/-- The claims of a voice in this body. -/
def VoiceBody.claims (b : VoiceBody) : List (Fin 64) := Voice.claims ⟨0, b⟩

theorem Voice.claims_eq (x : Voice) : x.claims = x.body.claims := rfl

/-- The laws of the age list and of the use counts go over from one state to another, which has power and loading as before. -/
structure Keeps (s t : State) : Prop where
  age : s.ageLaw → t.ageLaw
  use : s.useLaw → t.useLaw
  power : t.power = s.power
  loadDue : t.loadDue = s.loadDue

namespace Keeps

theorem refl (s : State) : Keeps s s := ⟨id, id, rfl, rfl⟩

theorem trans {s t u : State} (h : Keeps s t) (k : Keeps t u) : Keeps s u :=
  ⟨k.age ∘ h.age, k.use ∘ h.use, k.power.trans h.power, k.loadDue.trans h.loadDue⟩

theorem of_moves {s t : State} (h : Moves s t) (use : s.useLaw → t.useLaw) : Keeps s t :=
  ⟨h.ageLaw, use, h.untouched.power, h.untouched.loadDue⟩

/-- An update of what the two laws do not read. -/
theorem beside {s t : State} (hv : t.voices = s.voices) (ha : t.alc.age = s.alc.age) (hc : t.clips = s.clips)
    (hs : ∀ i, (t.sectors.get i).useCount = (s.sectors.get i).useCount) (hp : t.power = s.power)
    (hl : t.loadDue = s.loadDue) : Keeps s t := by
  have voice (v : Fin 16) : t.voice v = s.voice v := by unfold State.voice; rw [hv]
  refine ⟨Moves.ageLaw_of_eq ha fun v => by rw [voice], fun h => ?_, hp, hl⟩
  have claims : t.claims = s.claims := State.claims_congr fun v => by rw [voice]
  rw [State.useLaw_iff, claims]
  exact State.counts_congr hc hs h

theorem lane (s : State) (l : Fin 4) (x : Lane) : Keeps s (s.setLane l x) := beside rfl rfl rfl (fun _ => rfl) rfl rfl

theorem post (s : State) (k : EventKind) (n : Nat) (g r : Byte) (x : BitVec 32) : Keeps s (s.post k n g r x) :=
  beside (by simp) (by simp) (by simp) (by simp) (by simp) (by simp)

theorem raise (s : State) (t : Tally) : Keeps s (s.raise t) := beside rfl rfl rfl (fun _ => rfl) rfl rfl

theorem retry (s : State) (r : Option Retry) : Keeps s (s.setRetry r) := beside rfl rfl rfl (fun _ => rfl) rfl rfl

theorem clearOffer (s : State) : Keeps s s.clearOffer := beside rfl rfl rfl (fun _ => rfl) rfl rfl

theorem opening (s : State) : Keeps s s.opening.2 := beside rfl rfl rfl (fun _ => rfl) rfl rfl

theorem contribution (s : State) (v : Fin 16) (a : Int × Int) : Keeps s (s.setContribution v a) :=
  beside rfl rfl rfl (fun _ => rfl) rfl rfl

theorem foldl {α : Type} (f : State → α → State) (hf : ∀ s x, Keeps s (f s x)) (l : List α) (s : State) :
    Keeps s (l.foldl f s) := by
  induction l generalizing s with
  | nil => exact refl s
  | cons x xs ih => exact (hf s x).trans (ih (f s x))

/-! ### How a start goes on, and how it ends (R13, R17, R19) -/

section

variable {s : State} {v : Fin 16}

/-- A voice that is not FREE changes its body and keeps its claims. -/
theorem body {b b' : VoiceBody} (h : (s.voice v).body = b) (hb : b.isFree = false) (hb' : b'.isFree = false)
    (hc : b'.claims = b.claims) : Keeps s (s.setBody v b') := by
  refine of_moves (Moves.body s v b' (Moves.nonFree h hb) hb') fun law => ?_
  have claims : (s.setBody v b').claims = s.claims := by
    refine State.claims_congr fun w => ?_
    rw [State.voice_setBody]
    split
    · next e => subst e; rw [Voice.claims_eq, Voice.claims_eq (s.voice v), h]; exact hc
    · rfl
  rw [State.useLaw_iff, claims]
  exact State.counts_congr rfl (fun _ => rfl) law

theorem claims_of_stands {x : Voice} {y : Sounding} (h : x.stands = some y) : x.claims = [y.clip] := by
  unfold Voice.stands at h
  unfold Voice.claims
  split at h <;> simp_all

/-- A start that is not being cut ends, and its claim with it (R13). -/
theorem endFree {x y : Sounding} (h : (s.voice v).stands = some y) (hc : x.clip = y.clip) (r : EndReason) :
    Keeps s (s.endFree v x r) := by
  refine of_moves (Moves.endFree s v x r) ?_
  rw [State.endFree_eq (by rw [h]; rfl)]
  exact State.useLaw_releases (v := v) (x := ⟨(s.voice v).generation, .free⟩) (c := x.clip) rfl rfl rfl
    (by rw [claims_of_stands h, hc]; rfl)

/-- A start is stopped: its cut begins, or a HELD one ends (R17). -/
theorem stopStart (s : State) (v : Fin 16) (r : CutReason) : Keeps s (s.stopStart v r) := by
  unfold State.stopStart
  dsimp only
  cases h : (s.voice v).body with
  | free => exact refl s
  | cutting => exact refl s
  | held y => exact endFree (by unfold Voice.stands; rw [h]) rfl _
  | playing y => exact body h rfl rfl rfl
  | releasing y => exact body h rfl rfl rfl

/-- A successor is cancelled, and its claim with it (R19). -/
theorem cancelSuccessor (s : State) (v : Fin 16) (r : EndReason) : Keeps s (s.cancelSuccessor v r) := by
  cases hb : (s.voice v).body with
  | cutting y c z =>
    cases z with
    | none => unfold State.cancelSuccessor; rw [hb]; exact refl s
    | some z =>
      refine of_moves (Moves.cancelSuccessor s v r) ?_
      rw [State.cancelSuccessor_eq hb]
      exact State.useLaw_releases (v := v) (x := ⟨(s.voice v).generation, .cutting y c none⟩) (c := z.order.clip) rfl rfl rfl
        (by unfold Voice.claims; rw [hb]; exact List.Perm.swap ..)
  | _ => unfold State.cancelSuccessor; rw [hb]; exact refl s

/-- A cut completes: the cut start's claim ends, and a successor's stands (R12). That the successor's clip is DEFINED is the law
itself (R122). -/
theorem completeCut {x y : Sounding} {c : Cut} {z : Option Successor} (hb : (s.voice v).body = .cutting y c z)
    (hc : x.clip = y.clip) : Keeps s (s.completeCut v x c z) := by
  refine of_moves (Moves.completeCut s v x c z (Moves.nonFree hb rfl)) fun h => ?_
  have claims : (s.voice v).claims = y.clip :: (z.map fun p => p.order.clip).toList := by
    unfold Voice.claims
    rw [hb]
    cases z <;> rfl
  cases z with
  | none =>
    rw [State.completeCut_frees hb]
    exact State.useLaw_releases (v := v) (x := ⟨(s.voice v).generation, .free⟩) (c := x.clip) rfl rfl rfl
      (by rw [claims, hc]; rfl) h
  | some z =>
    have stands : z.order.clip ∈ s.claims := (s.claims_perm v).mem_iff.2 (by rw [claims]; simp)
    obtain ⟨q, hq⟩ := Option.isSome_iff_exists.1 (State.counts_defined h stands)
    rw [State.completeCut_begins hb hq]
    exact State.useLaw_releases (v := v) (x := ⟨(s.voice v).generation, .playing (z.order.begin z.owner q)⟩) (c := x.clip)
      rfl rfl rfl (by rw [claims, hc]; rfl) h

end

/-! ### The frame work of a voice (R2, R3, R11) -/

theorem rampArrives (s : State) (v : Fin 16) (x : Sounding) (p : Ramp) (n : Nat) : Keeps s (s.rampArrives v x p n) := by
  unfold State.rampArrives
  split
  · exact post ..
  · exact refl s

/-- A kind of body that a sounding start of a frame is in: PLAYING or RELEASING. -/
def Sounds (b : Sounding → VoiceBody) : Prop := b = .playing ∨ b = .releasing

section

variable {s : State} {v : Fin 16} {x y : Sounding} {b : Sounding → VoiceBody}

theorem stands_of_sounds (hb : Sounds b) (g : Byte) (x : Sounding) : Voice.stands ⟨g, b x⟩ = some x := by
  rcases hb with rfl | rfl <;> rfl

theorem body_sounds (hb : Sounds b) (h : (s.voice v).body = b x) (hc : y.clip = x.clip) : Keeps s (s.setBody v (b y)) := by
  rcases hb with rfl | rfl
  · exact body h rfl rfl (congrArg (fun c => [c]) hc)
  · exact body h rfl rfl (congrArg (fun c => [c]) hc)

theorem advanceRamp (hb : Sounds b) (h : (s.voice v).body = b x) (hc : y.clip = x.clip) (releasing : Bool) :
    Keeps s (s.advanceRamp v y b releasing) := by
  unfold State.advanceRamp
  split
  · exact body_sounds hb h hc
  · next p _ =>
    split
    · exact body_sounds hb h hc
    · next level _ =>
      have arrived : ((s.rampArrives v y p level).voice v).body = b x := by rw [Moves.voice_rampArrives]; exact h
      refine ((rampArrives s v y p level).trans (body_sounds (y := { y with level, ramp := none }) hb arrived hc)).trans ?_
      split
      · exact endFree (by rw [State.voice_setBody, if_pos rfl]; exact stands_of_sounds hb _ _) rfl _
      · exact refl _

theorem soundingFrame (hb : Sounds b) (h : (s.voice v).body = b x) (releasing : Bool) :
    Keeps s (s.soundingFrame v x b releasing) := by
  unfold State.soundingFrame
  split
  · exact contribution ..
  · next q _ =>
    refine (contribution s v (soundingContribution s.mem q x)).trans ?_
    split
    · refine endFree (y := x) ?_ rfl _
      have stands := stands_of_sounds hb (s.voice v).generation x
      rwa [← h] at stands
    · next y ha =>
      have clip : y.clip = x.clip := by rw [Sounding.advance_eq ha]
      exact advanceRamp (s := s.setContribution v _) hb h clip _

theorem cutFrame {c : Cut} {z : Option Successor} (h : (s.voice v).body = .cutting x c z) :
    Keeps s (s.cutFrame v x c z) := by
  unfold State.cutFrame
  split
  · exact contribution ..
  · next q _ =>
    refine (contribution s v (cutContribution s.mem q x c)).trans ?_
    dsimp only
    split
    · exact completeCut (s := s.setContribution v _) h rfl
    · next y ha =>
      have clip : y.clip = x.clip := by rw [Sounding.advance_eq ha]
      split
      · exact completeCut (s := s.setContribution v _) h clip
      · refine body (s := s.setContribution v _) h rfl rfl ?_
        cases z <;> exact congrArg (· :: _) clip

end

/-- The frame work of a voice (R2, R3, R11). -/
theorem voiceFrame (s : State) (v : Fin 16) : Keeps s (s.voiceFrame v) := by
  unfold State.voiceFrame
  cases h : (s.voice v).body with
  | free => exact contribution ..
  | held => exact contribution ..
  | playing x => exact soundingFrame (.inl rfl) h _
  | releasing x => exact soundingFrame (.inr rfl) h _
  | cutting x c z => exact cutFrame h

/-! ### The operations on a handle (R15 to R18) -/

section

variable (s : State) (h : Handle)

theorem opRamp (r : RampSpec) : Keeps s (s.opRamp h r).2 := by
  unfold State.opRamp
  split
  · exact refl s
  · exact refl s
  · exact refl s
  · split
    · next e => exact body e rfl rfl rfl
    · next e => exact body e rfl rfl rfl
    · exact refl s

theorem opRelease : Keeps s (s.opRelease h).2 := by
  unfold State.opRelease
  split
  · exact refl s
  · exact refl s
  · exact cancelSuccessor ..
  · split
    · next e => split <;> exact body e rfl rfl rfl
    · next e => split <;> exact body e rfl rfl rfl
    · exact refl s

theorem opStop : Keeps s (s.opStop h).2 := by
  unfold State.opStop
  split
  · exact refl s
  · exact refl s
  · exact cancelSuccessor ..
  · exact stopStart ..

theorem opHold : Keeps s (s.opHold h).2 := by
  unfold State.opHold
  split
  · exact refl s
  · exact refl s
  · exact refl s
  · split
    · next e => exact body e rfl rfl rfl
    · next e => exact body e rfl rfl rfl
    · exact refl s

theorem opContinue : Keeps s (s.opContinue h).2 := by
  unfold State.opContinue
  split
  · exact refl s
  · exact refl s
  · exact refl s
  · split
    · next e => exact body e rfl rfl rfl
    · next e => exact body e rfl rfl rfl
    · exact refl s

end

end Keeps

end Sys2Proof.Machine
end

section
/-! PROOFS. The allocator's operations as updates of named fields, and what they keep (R41 to R49). -/

namespace Sys2Proof.Machine

/-! ### Voices that can be had (R44, R45) -/

theorem Voice.stealPriority_eq (x : Voice) : x.stealPriority = x.stands.map fun y => y.priority := by
  unfold Voice.stealPriority Voice.stands
  split <;> simp_all

/-- The steal candidates are the voices of the age list that sound at a lower priority (R45). -/
theorem State.mem_stealCandidates {s : State} {p : Fin 8} {v : Fin 16} :
    v ∈ s.stealCandidates p ↔ v ∈ s.alc.age ∧ ∃ y, (s.voice v).stands = some y ∧ y.priority < p := by
  unfold State.stealCandidates
  rw [List.mem_filter, Voice.stealPriority_eq]
  cases (s.voice v).stands <;> simp

/-- The voice a steal takes is a candidate (R45). -/
theorem State.stealVictim_stands {s : State} {p : Fin 8} {v : Fin 16} (h : s.stealVictim p = some v) :
    ∃ y, (s.voice v).stands = some y := by
  have low : v ∈ s.lowestOf (s.stealCandidates p) := by
    unfold State.stealVictim at h
    dsimp only at h
    split at h
    · next hr =>
      cases h
      exact List.mem_of_mem_filter (hr ▸ List.mem_cons_self)
    · exact List.mem_of_head? h
  obtain ⟨-, y, hy, -⟩ := State.mem_stealCandidates.1 (List.mem_of_mem_filter low)
  exact ⟨y, hy⟩

theorem Voice.takesSuccessor_iff (x : Voice) : x.takesSuccessor = true ↔ ∃ y c, x.body = .cutting y c none := by
  unfold Voice.takesSuccessor
  split <;> simp_all

theorem Voice.isFree_iff (x : Voice) : x.isFree = true ↔ x.body = .free := by
  unfold Voice.isFree
  split <;> simp_all

theorem Voice.body_of_stands {x : Voice} {y : Sounding} (h : x.stands = some y) :
    x.body = .playing y ∨ x.body = .releasing y ∨ ∃ w, x.body = .held y w := by
  unfold Voice.stands at h
  split at h <;> simp_all

/-! ### Stopping, binding and attaching (R17, R48, R49) -/

/-- The state with a claim taken: the only fields that R50 touches. -/
theorem State.takeClaim_eq (s : State) (c : Fin 64) :
    s.takeClaim c = { s with
      clips := s.clips.set c { s.clip c with useCount := (s.clip c).useCount + 1 }
      sectors := s.claimSectors (· + 1) c } := State.changeClaim_eq ..

/-- A claim taken, in the words of `State.claimedMore` (R50). -/
theorem State.claimedMore_takeClaim (s : State) (c : Fin 64) : s.claimedMore (s.takeClaim c) c := by
  unfold State.claimedMore
  refine ⟨by rw [State.takeClaim_eq], fun i => ?_⟩
  unfold State.takeClaim
  rw [State.get_sectors_changeClaim]
  cases (s.clip c).record <;> simp

section

variable {s : State} {v : Fin 16} {y : Sounding}

/-- A sounding start is cut, its handle still live (R17). -/
theorem State.stopStart_cuts (h : (s.voice v).body = .playing y ∨ (s.voice v).body = .releasing y) (r : CutReason) :
    s.stopStart v r = { s with
      voices := s.voices.set v ⟨(s.voice v).generation, .cutting y ⟨32, r, (s.voice v).generation⟩ none⟩ } := by
  unfold State.stopStart
  dsimp only
  rcases h with h | h <;> rw [h] <;> rfl

/-- A HELD start ends at once (R17). -/
theorem State.stopStart_ends {w : HeldFrom} (h : (s.voice v).body = .held y w) (r : CutReason) :
    s.stopStart v r = s.endFree v y r.endReason := by
  unfold State.stopStart
  dsimp only
  rw [h]

/-- An order bound to a voice (R48). -/
theorem State.bindStart_eq (s : State) (v : Fin 16) (o : StartOrder) (w : Owner) (r : ClipRecord) :
    s.bindStart v o w r = (.sounding ⟨v, (s.voice v).generation + 1⟩, { s.takeClaim o.clip with
      voices := s.voices.set v ⟨(s.voice v).generation + 1, .playing (o.begin w r)⟩
      alc := { s.alc with age := s.alc.age ++ [v] } }) := by
  unfold State.bindStart
  rw [State.takeClaim_eq]
  rfl

/-- An order attached to a cutting voice; the cut start's handle, where it is still live, is so no longer (R49). -/
theorem State.attachSuccessor_eq {c : Cut} (h : (s.voice v).body = .cutting y c none) (o : StartOrder) (w : Owner) :
    s.attachSuccessor v o w = (.awaiting ⟨v, (s.voice v).generation + 1⟩, { s.takeClaim o.clip with
      voices := s.voices.set v ⟨(s.voice v).generation + 1,
        .cutting y c (some ⟨o, (s.voice v).generation + 1, w⟩)⟩
      alc := { s.alc with age := s.alc.age.erase v ++ [v] }
      signals := if c.generation = (s.voice v).generation then s.signals ++ [⟨v, c.generation⟩] else s.signals }) := by
  have live : (s.voice v).cutIsLive = decide (c.generation = (s.voice v).generation) := by
    unfold Voice.cutIsLive
    rw [h]
  have attached : (s.voice v).withSuccessor o w = ⟨(s.voice v).generation + 1,
      .cutting y c (some ⟨o, (s.voice v).generation + 1, w⟩)⟩ := by
    unfold Voice.withSuccessor
    rw [h]
  unfold State.attachSuccessor
  dsimp only
  rw [live, attached]
  by_cases same : c.generation = (s.voice v).generation
  · rw [decide_eq_true same, if_pos rfl, if_pos same, same, State.takeClaim_eq, State.takeClaim_eq]
    rfl
  · rw [decide_eq_false same, if_neg Bool.false_ne_true, if_neg same, State.takeClaim_eq]
    rfl

end

/-- An order that passes the checks is for a DEFINED clip (R42 check 1). -/
theorem State.record_of_clipChecks {s : State} {o : StartOrder} {w : Owner} {r : ClipRecord} (h : s.clipChecks o w = .ok r) :
    (s.clip o.clip).record = some r := by
  unfold State.clipChecks at h
  split at h
  · cases h
  · next q hq =>
    repeat (split at h; · cases h)
    cases h
    exact hq

namespace Keeps

theorem groupAt (g : Fin 8) (s : State) (v : Fin 16) : Keeps s (State.groupAt g s v) := by
  unfold State.groupAt
  split
  · split; exacts [stopStart .., refl s]
  · split; exacts [stopStart .., refl s]
  · split; exacts [stopStart .., refl s]
  · split; exacts [cancelSuccessor .., refl s]
  · exact refl s
  · exact refl s

/-- The group rule (R43). -/
theorem groupRule (s : State) (g : Fin 8) : Keeps s (s.groupRule g) := by
  unfold State.groupRule
  split
  · exact refl s
  · exact foldl _ (fun s v => groupAt g s v) _ _

section

variable {s : State} {v : Fin 16} {o : StartOrder} (hr : (s.clip o.clip).record.isSome = true) (w : Owner)

include hr

/-- Binding to a FREE voice (R48). -/
theorem bindStart (h : (s.voice v).isFree = true) (r : ClipRecord) : Keeps s (s.bindStart v o w r).2 := by
  refine of_moves (Moves.bindStart s v o w r h) ?_
  rw [State.bindStart_eq]
  have claims : (s.voice v).claims = [] := by rw [Voice.claims_eq, (Voice.isFree_iff _).1 h]; rfl
  exact State.useLaw_takes (v := v) (x := ⟨(s.voice v).generation + 1, .playing (o.begin w r)⟩) rfl rfl rfl hr
    (by rw [claims]; rfl)

/-- Attaching a successor (R49). -/
theorem attachSuccessor (h : (s.voice v).takesSuccessor = true) : Keeps s (s.attachSuccessor v o w).2 := by
  obtain ⟨y, c, hb⟩ := (Voice.takesSuccessor_iff _).1 h
  refine of_moves (Moves.attachSuccessor s v o w (Moves.nonFree hb rfl)) ?_
  rw [State.attachSuccessor_eq hb]
  have claims : (s.voice v).claims = [y.clip] := by rw [Voice.claims_eq, hb]; rfl
  exact State.useLaw_takes (v := v) (c := o.clip) (x := ⟨(s.voice v).generation + 1,
    .cutting y c (some ⟨o, (s.voice v).generation + 1, w⟩)⟩) rfl rfl rfl hr (by rw [claims]; exact List.Perm.swap ..)

/-- A steal of a start that stands: it is cut, or it was HELD and its voice is FREE (R46). -/
theorem steal {y : Sounding} (h : (s.voice v).stands = some y) (r : ClipRecord) : Keeps s (s.steal v o w r).2 := by
  have stopped := (raise s .steals).trans (stopStart (s.raise .steals) v .stolen)
  have record : (((s.raise .steals).stopStart v .stolen).clip o.clip).record.isSome = true := by
    rw [(Moves.stopStart ..).untouched.records]
    exact hr
  unfold State.steal
  dsimp only
  split
  · next hf => exact stopped.trans (bindStart record w hf r)
  · next hf =>
    refine stopped.trans (attachSuccessor record w ?_)
    have moving (hb : (s.voice v).body = .playing y ∨ (s.voice v).body = .releasing y) :
        (((s.raise .steals).stopStart v .stolen).voice v).takesSuccessor = true := by
      rw [State.stopStart_cuts (s := s.raise .steals) hb, Voice.takesSuccessor_iff]
      exact ⟨y, _, congrArg Voice.body (Table.get_set_self ..)⟩
    rcases Voice.body_of_stands h with hb | hb | ⟨q, hb⟩
    · exact moving (.inl hb)
    · exact moving (.inr hb)
    · refine absurd ?_ hf
      rw [State.stopStart_ends (s := s.raise .steals) hb, Voice.isFree_iff, State.body_endFree]

/-- Voice choice and binding (R44 to R49). -/
theorem chooseVoice (r : ClipRecord) : Keeps s (s.chooseVoice o w r).2 := by
  unfold State.chooseVoice
  split
  · next v h => exact bindStart hr w (List.find?_some (p := fun v => (s.voice v).isFree) h) r
  · split
    · next v h => exact attachSuccessor hr w (List.find?_some (p := fun v => (s.voice v).takesSuccessor) h)
    · split
      · next v h =>
        obtain ⟨y, hy⟩ := State.stealVictim_stands h
        exact steal hr w hy r
      · exact refl s

end

/-- A start order taken whole (R41). -/
theorem tryOrder (s : State) (o : StartOrder) (w : Owner) : Keeps s (s.tryOrder o w).2 := by
  unfold State.tryOrder
  split
  · exact refl s
  · next r h =>
    refine (groupRule s o.group).trans (chooseVoice ?_ w r)
    rw [(Moves.groupRule ..).untouched.records, State.record_of_clipChecks h]
    rfl

/-- A start order that is no retry (R41, R47). -/
theorem takeOrder (s : State) (o : StartOrder) (w : Owner) : Keeps s (s.takeOrder o w).2 := by
  have h := tryOrder s o w
  unfold State.takeOrder
  split
  · next e => rw [e] at h; exact h.trans (raise ..)
  · exact h

end Keeps

end Sys2Proof.Machine
end

section
/-! PROOFS. What every operation of the lanes keeps: they reach the voices by start orders and by the operations on a handle alone
(R61 to R63, R85, R89). -/

namespace Sys2Proof.Machine

namespace Keeps

section

variable (s : State) (l : Fin 4)

/-! ### Records, faults and notices (R88, R91) -/

theorem postLaneIdle (r : Byte) (k : Option (Fin 256)) (f : Byte) : Keeps s (s.postLaneIdle l r k f) := post ..

theorem faultLane (k : Fin 256) (f : LaneFault) : Keeps s (s.faultLane l k f) := (lane ..).trans (postLaneIdle ..)

theorem oweNotice (r : NoticeReason) (k : Fin 256) (q : Nat) : Keeps s (s.oweNotice l r k q) := by
  unfold State.oweNotice
  split
  · exact postLaneIdle ..
  · exact lane ..

theorem postNotice : Keeps s (s.postNotice l) := by
  unfold State.postNotice
  split
  · exact refl s
  · exact (postLaneIdle ..).trans (lane ..)

/-! ### Fetching and starting (R76, R78) -/

theorem fetch (k : Fin 256) : Keeps s (s.fetch l k) := by
  unfold State.fetch
  split <;> exact lane ..

theorem beginRun (k : Fin 256) (c : Bool) (o : Origin) : Keeps s (s.beginRun l k c o) := (lane ..).trans (fetch ..)

/-! ### Taking a block (R61 to R68) -/

theorem playFailed (k : Fin 256) (p : PlayOperands) (st : Status) : Keeps s (s.playFailed l k p st).2 := by
  unfold State.playFailed
  refine (lane s l ((s.lane l).setHandle p.h none)).trans ?_
  dsimp only
  split
  · exact post ..
  · split
    · exact (lane ..).trans (retry ..)
    · exact post ..
  · exact faultLane ..

theorem takePlay (k : Fin 256) (p : PlayOperands) : Keeps s (s.takePlay l k p).2 := by
  have order := takeOrder s p.order (.lane l)
  unfold State.takePlay
  split
  · next e => rw [e] at order; exact order.trans (lane ..)
  · next e => rw [e] at order; exact order.trans (lane ..)
  · next e => rw [e] at order; exact order.trans (playFailed ..)
  · next e => rw [e] at order; exact order

theorem onHandle (h : Fin 4) {f : State → Handle → Status × State} (hf : ∀ s x, Keeps s (f s x).2) :
    Keeps s (s.onHandle l h f) := by
  unfold State.onHandle
  split
  · exact refl s
  · exact hf ..

theorem takeWaitVoice (h : Fin 4) : Keeps s (s.takeWaitVoice l h).2 := by
  unfold State.takeWaitVoice
  split
  · exact refl s
  · split
    · exact refl s
    · exact lane ..

theorem takeRepeat (k target link : Fin 256) (count : Nat) : Keeps s (s.takeRepeat l k target link count).2 := by
  unfold State.takeRepeat
  dsimp only
  split
  · exact lane ..
  · split
    · exact faultLane ..
    · split <;> exact lane ..

/-- A block's op taken (R79). -/
theorem takeOp (k : Fin 256) (b : CueBlock) : Keeps s (s.takeOp l k b).2 := by
  unfold State.takeOp
  split
  · exact takePlay ..
  · exact onHandle _ _ _ fun s x => opRamp s x _
  · exact onHandle _ _ _ opRelease
  · exact onHandle _ _ _ opStop
  · exact lane ..
  · exact takeWaitVoice ..
  · exact lane ..
  · exact takeRepeat ..
  · exact post ..

/-! ### Completing a block (R80) -/

theorem endRun (k : Fin 256) (q : Nat) : Keeps s (s.endRun l k q) := by
  unfold State.endRun
  refine ((lane s l (s.lane l).idled).trans (oweNotice _ l .runEnd k q)).trans ?_
  dsimp only
  split
  · exact refl _
  · exact beginRun ..

theorem finishBlock (k : Fin 256) (b : CueBlock) (n : Option (Fin 256)) : Keeps s (s.finishBlock l k b n) := by
  have noted : Keeps s (if b.note = true then s.postCueDone l k else s) := by
    split
    · exact post ..
    · exact refl s
  unfold State.finishBlock
  refine noted.trans ?_
  generalize (if b.note = true then s.postCueDone l k else s) = u
  dsimp only
  split
  · exact fetch ..
  · split
    · exact (lane ..).trans (oweNotice ..)
    · split
      · exact endRun ..
      · exact fetch ..

/-- A block taken and, where it completes at once, completed (R79, R80). -/
theorem takeBlock (k : Fin 256) (b : CueBlock) : Keeps s (s.takeBlock l k b) := by
  have op := takeOp s l k b
  unfold State.takeBlock
  split
  · next u e =>
    rw [e] at op
    refine op.trans ((lane u l { u.lane l with budget := (u.lane l).budget + 1 }).trans ?_)
    unfold State.completeAtOnce
    dsimp only
    split
    · exact faultLane ..
    · exact finishBlock ..
  · next e => rw [e] at op; exact op

theorem takeNext : Keeps s (s.takeNext l) := by
  unfold State.takeNext
  split
  · exact refl s
  · exact takeBlock ..

/-! ### Running on (R79) -/

theorem runOn (fuel : Nat) (s : State) (l : Fin 4) : Keeps s (State.runOn fuel s l) := by
  induction fuel generalizing s with
  | zero => exact refl s
  | succ fuel ih =>
    unfold State.runOn
    split
    · exact refl s
    · split
      · exact opening s
      · exact ((opening s).trans (takeNext ..)).trans (ih _)

theorem settle (fuel : Nat) (s : State) (l : Fin 4) : Keeps s (State.settle fuel s l) := by
  induction fuel generalizing s with
  | zero => exact refl s
  | succ fuel ih =>
    unfold State.settle
    split
    · exact refl s
    · exact (takeNext ..).trans (ih _)

theorem runLane : Keeps s (s.runLane l) := (takeNext ..).trans (runOn ..)

/-- A start of a lane (R76). -/
theorem startLane (k : Fin 256) (c : Bool) (o : Origin) : Keeps s (s.startLane l k c o) := (beginRun ..).trans (runLane ..)

/-! ### Waits (R82 to R86) -/

theorem endWait : Keeps s (s.endWait l) := by
  unfold State.endWait
  split
  · exact refl s
  · exact (lane ..).trans (finishBlock ..)

theorem wakeLane : Keeps s (s.wakeLane l) := (endWait ..).trans (runOn ..)

/-- The lanes that one event wakes (R83, R84). -/
theorem wakeInTurn (ls : List (Fin 4)) : Keeps s (s.wakeInTurn ls) := by
  induction ls generalizing s with
  | nil => exact refl s
  | cons l rest ih =>
    cases rest with
    | nil => exact wakeLane ..
    | cons => exact ((endWait ..).trans (settle ..)).trans (ih _)

theorem tickLane : Keeps s (s.tickLane l) := by
  unfold State.tickLane
  dsimp only
  split
  · split
    · exact endWait ..
    · exact lane ..
  · split
    · exact refl s
    · split
      · exact postNotice ..
      · exact lane ..

/-- The lanes that a tick changes (R83, R91). -/
theorem tickInTurn (ls : List (Fin 4)) : Keeps s (s.tickInTurn ls) := by
  induction ls generalizing s with
  | nil => exact refl s
  | cons l rest ih =>
    cases rest with
    | nil =>
      unfold State.tickInTurn
      split
      · exact (tickLane ..).trans (runOn ..)
      · exact tickLane ..
    | cons =>
      unfold State.tickInTurn
      refine Keeps.trans ?_ (ih _)
      split
      · exact (tickLane ..).trans (settle ..)
      · exact tickLane ..

/-! ### Retries (R53, R85) -/

theorem retrySucceeded (h : Handle) : Keeps s (s.retrySucceeded l h) := by
  unfold State.retrySucceeded
  dsimp only
  split
  · exact wakeLane ..
  · exact (lane ..).trans (wakeLane ..)

theorem answerRetry (r : Retry) : Keeps s (s.answerRetry r) := by
  have order := (retry s none).trans (tryOrder (s.setRetry none) r.order (.lane r.lane))
  have reached (b : Bool) (t : State) (h : Handle) : Keeps t (if b = true then t.retrySucceeded r.lane h else t) := by
    split
    · exact retrySucceeded ..
    · exact refl t
  unfold State.answerRetry
  split
  · next e => rw [e] at order; exact order.trans (reached ..)
  · next e => rw [e] at order; exact order.trans (reached ..)
  · next e => rw [e] at order; exact order
  · next e => rw [e] at order; exact order

theorem retryFrom (n : Nat) : Keeps s (s.retryFrom n) := by
  unfold State.retryFrom
  refine foldl _ (fun s l => ?_) _ _
  split
  · unfold State.retryAt
    split
    · exact refl s
    · unfold State.askRetry
      split
      · exact (opening s).trans (retry ..)
      · exact (opening s).trans (answerRetry ..)
  · exact refl s

/-- A retry round (R53). -/
theorem retryRound : Keeps s s.retryRound := by
  unfold State.retryRound
  split
  · exact (answerRetry ..).trans (retryFrom ..)
  · split
    · exact (clearOffer s).trans (retryFrom ..)
    · exact refl s

/-- A step with no command waiting (log 6). -/
theorem goOn : Keeps s s.goOn := by
  unfold State.goOn
  split
  · exact retryRound s
  · split
    · exact refl s
    · exact runLane ..

/-! ### Pause, resume, abort, binding starts (R86, R87, R89, R93) -/

theorem pauseRequest : Keeps s (s.pauseRequest l).2 := by
  unfold State.pauseRequest
  dsimp only
  split
  · exact lane ..
  · exact lane ..
  · split
    · refine (lane s l { s.lane l with pauseRequested := true }).trans ?_
      unfold State.giveUpStart
      split
      · exact refl _
      · exact (post ..).trans (wakeLane ..)
    · exact lane ..
  · exact refl s
  · exact refl s
  · exact refl s

theorem resumeLane : Keeps s (s.resumeLane l).2 := by
  unfold State.resumeLane
  split
  · refine (lane s l { s.lane l with notice := none, budget := 0 }).trans ?_
    dsimp only
    split
    · exact refl _
    · refine Keeps.trans ?_ (runLane ..)
      split
      · exact endRun ..
      · exact fetch ..
  · exact refl s

theorem cutHandles : Keeps s (s.cutHandles l) :=
  foldl (fun s h => s.onHandle l h fun s x => s.opStop x) (fun s h => onHandle s l h opStop) _ _

theorem abortLane (c p : Bool) : Keeps s (s.abortLane l c p) := by
  have cuts (u : State) : Keeps u (if c = true then u.cutHandles l else u) := by
    split
    · exact cutHandles u l
    · exact refl u
  have notice (u : State) (due : Bool) (k : Option (Fin 256)) :
      Keeps u (if due = true then u.postLaneIdle l laneIdleAbort k 0 else u) := by
    split
    · exact postLaneIdle ..
    · exact refl u
  exact ((lane s l { (s.lane l).idled with notice := none }).trans (cuts _)).trans (notice _ _ _)

theorem bindingStart (i : Fin 32) (b : Binding) : Keeps s (s.bindingStart i b).2 := by
  unfold State.bindingStart
  dsimp only
  split
  · exact startLane s b.lane b.entry b.clear (.binding i)
  · split
    · exact refl s
    · dsimp only
      exact (abortLane ..).trans (startLane ..)
    · split
      · exact refl s
      · exact lane ..

/-- The lanes that starve on a slot (R70). -/
theorem wakeStarved (k : Fin 256) : Keeps s (s.wakeStarved k) := by
  unfold State.wakeStarved
  refine foldl _ (fun s l => ?_) _ _
  split
  · exact (fetch ..).trans (runLane ..)
  · exact refl s

end

end Keeps

end Sys2Proof.Machine
end

section
/-! PROOFS. What a part that is still to load, or has no power, holds (R22, R97, R115, R171, log 16), and what store steps, output
and counts leave alone. -/

namespace Sys2Proof.Machine

/-! ### A quiet part -/

/-- No voice sounds, no lane runs, no retry stands, no reply is owed, both receivers are OFF and no autostart entry is due. -/
structure State.Quiet (s : State) : Prop where
  voices : ∀ v : Fin 16, (s.voice v).isFree = true
  lanes : ∀ l : Fin 4, (s.lane l).state = .idle ∧ (s.lane l).wait = none
  retry : s.alc.retry = none
  host : s.lnk.rx = .off
  owed : s.lnk.replyOwed = false
  trig : s.trg.rx = .off
  due : s.autostartDue = []

theorem State.coldLaw_iff (s : State) : s.coldLaw ↔ ((s.power = false ∨ s.loadDue = true) → s.Quiet) := by
  constructor
  · intro h cold
    obtain ⟨voices, lanes, retry, host, owed, trig, due⟩ := h cold
    exact ⟨voices, lanes, retry, host, owed, trig, due⟩
  · intro h cold
    obtain ⟨voices, lanes, retry, host, owed, trig, due⟩ := h cold
    exact ⟨voices, lanes, retry, host, owed, trig, due⟩

/-- Neither the laws of the age list and the use counts nor a quiet part read what has changed. -/
structure Aside (s t : State) : Prop where
  voices : t.voices = s.voices
  alc : t.alc = s.alc
  clips : t.clips = s.clips
  sectors : ∀ i, (t.sectors.get i).useCount = (s.sectors.get i).useCount
  lanes : t.lanes = s.lanes
  trg : t.trg.rx = s.trg.rx
  lnk : t.lnk = s.lnk
  autostartDue : t.autostartDue = s.autostartDue
  power : t.power = s.power
  loadDue : t.loadDue = s.loadDue

namespace Aside

variable {s t u : State}

theorem refl (s : State) : Aside s s := ⟨rfl, rfl, rfl, fun _ => rfl, rfl, rfl, rfl, rfl, rfl, rfl⟩

theorem trans (h : Aside s t) (k : Aside t u) : Aside s u where
  voices := k.voices.trans h.voices
  alc := k.alc.trans h.alc
  clips := k.clips.trans h.clips
  sectors i := (k.sectors i).trans (h.sectors i)
  lanes := k.lanes.trans h.lanes
  trg := k.trg.trans h.trg
  lnk := k.lnk.trans h.lnk
  autostartDue := k.autostartDue.trans h.autostartDue
  power := k.power.trans h.power
  loadDue := k.loadDue.trans h.loadDue

theorem keeps (h : Aside s t) : Keeps s t :=
  Keeps.beside h.voices (congrArg Alc.age h.alc) h.clips h.sectors h.power h.loadDue

theorem quiet (h : Aside s t) (q : s.Quiet) : t.Quiet where
  voices v := by unfold State.voice; rw [h.voices]; exact q.voices v
  lanes l := by unfold State.lane; rw [h.lanes]; exact q.lanes l
  retry := by rw [h.alc]; exact q.retry
  host := by rw [h.lnk]; exact q.host
  owed := by rw [h.lnk]; exact q.owed
  trig := by rw [h.trg]; exact q.trig
  due := by rw [h.autostartDue]; exact q.due

theorem post (s : State) (k : EventKind) (n : Nat) (g r : Byte) (x : BitVec 32) : Aside s (s.post k n g r x) := by
  rw [State.post_eq]
  exact ⟨rfl, rfl, rfl, fun _ => rfl, rfl, rfl, rfl, rfl, rfl, rfl⟩

/-! ### Output and the counts of a tick (R138 to R142, R109) -/

theorem out (s : State) (o : Out) (p : Progress) : Aside s { s with out := o, progress := p } :=
  ⟨rfl, rfl, rfl, fun _ => rfl, rfl, rfl, rfl, rfl, rfl, rfl⟩

theorem progress (s : State) (p : Progress) : Aside s { s with progress := p } := out s s.out p

theorem mixFrame (s : State) : Aside s s.mixFrame := by
  rw [State.mixFrame_eq]
  split <;> exact ⟨rfl, rfl, rfl, fun _ => rfl, rfl, rfl, rfl, rfl, rfl, rfl⟩

theorem countShare (s : State) : Aside s s.countShare := by
  unfold State.countShare
  split
  · exact refl s
  · exact out s _ s.progress

theorem tickHoldoffs (s : State) : Aside s s.tickHoldoffs := ⟨rfl, rfl, rfl, fun _ => rfl, rfl, rfl, rfl, rfl, rfl, rfl⟩

theorem holdoffShare (s : State) : Aside s s.holdoffShare := by
  unfold State.holdoffShare
  split
  · exact refl s
  · exact tickHoldoffs s

/-! ### Store steps (R128) -/

/-- A sector table entry replaced by one with the same use count. -/
theorem sector (s : State) (i : Fin 128) (x : Sector) (m : List Host.Cell) (o : Option OpRecord) (w : Bool) (d : Nat)
    (h : x.useCount = (s.sectors.get i).useCount) :
    Aside s { s.setSector i x with mem := m, op := o, coldWait := w, damage := d } := by
  refine ⟨rfl, rfl, rfl, fun j => ?_, rfl, rfl, rfl, rfl, rfl, rfl⟩
  show ((s.sectors.set i x).get j).useCount = _
  rw [Table.get_set]
  split
  · next e => rw [h, e]
  · rfl

theorem beginStep (s : State) (r : OpRecord) : Aside s (s.beginStep r) := sector s r.sector _ s.mem (some r) s.coldWait s.damage rfl

theorem endStep (s : State) (r : OpRecord) (result : StoreResult) : Aside s (s.endStep r result) := by
  have ended (o : Option OpRecord) (w : Bool) := sector s r.sector ((s.sectors.get r.sector).ended r.page.isNone result) s.mem
    o w s.damage rfl
  unfold State.endStep
  dsimp only
  split
  · exact ended none false
  · split
    · exact (ended s.op s.coldWait).trans (beginStep ..)
    · exact (ended none s.coldWait).trans (post ..)

theorem store (s : State) (m : List Host.Cell) (o : Option OpRecord) (d : Nat) :
    Aside s { s with mem := m, op := o, damage := d } := ⟨rfl, rfl, rfl, fun _ => rfl, rfl, rfl, rfl, rfl, rfl, rfl⟩

theorem stepDone (s : State) : Aside s s.stepDone := by
  unfold State.stepDone
  split
  · exact refl s
  · exact (store s _ s.op s.damage).trans (endStep ..)

theorem tickStore (s : State) : Aside s s.tickStore := by
  unfold State.tickStore
  split
  · exact refl s
  · split
    · unfold State.stepTimesOut
      split
      · exact refl s
      · exact (store s _ s.op _).trans (endStep ..)
    · exact store s s.mem _ s.damage

theorem storeShare (s : State) : Aside s s.storeShare := by
  unfold State.storeShare
  split
  · exact refl s
  · exact tickStore s

/-! ### The commands of log 3 that touch nothing else -/

theorem muteAhead (s : State) : Aside s s.muteAhead := by
  unfold State.muteAhead
  split
  · exact out ..
  · exact refl s

theorem holdoffAhead (s : State) (b : Fin 32) : Aside s (s.holdoffAhead b) := by
  unfold State.holdoffAhead
  split
  · exact ((countShare s).trans (tickHoldoffs _)).trans (progress ..)
  · exact refl s

theorem stepAhead (s : State) : Aside s s.stepAhead := by
  unfold State.stepAhead
  split
  · exact ((countShare s).trans (tickStore _)).trans (progress ..)
  · exact refl s

end Aside

end Sys2Proof.Machine
end

section
/-! PROOFS. What the requests, the two lines, time and the resets make of the age list and of the use counts (R52, R120, R122). -/

namespace Sys2Proof.Machine

/-! ### The owners of the requests -/

/-- The owner of a request keeps the laws of the age list and of the use counts. -/
def OwnerKeeps (f : Taking) : Prop := ∀ s, Keeps s (f s).2

namespace Keeps

/-- An answer beside the state. -/
theorem answered {α : Type} {s t : State} (h : Keeps s t) (a : α) : Keeps s (a, t).2 := h

theorem doLinkSet (rate : Byte) : OwnerKeeps (doLinkSet rate) := fun s => by
  unfold Machine.doLinkSet
  split
  · exact refl s
  · exact beside rfl rfl rfl (fun _ => rfl) rfl rfl

/-- With no claim on a clip, another record of it touches no claim that stands (R124, R125). -/
theorem setRecord {s : State} {c : Fin 64} (h : ¬0 < (s.clip c).useCount) (r : Option ClipRecord) :
    Keeps s (s.setClip c { s.clip c with record := r }) := by
  refine ⟨id, fun ⟨clips, defined, sectors⟩ => ?_, rfl, rfl⟩
  have unused : c ∉ s.claims := by
    rw [← List.count_pos_iff, ← clips]
    exact h
  refine ⟨fun d => ?_, fun d hd => ?_, fun i => (sectors i).trans ?_⟩
  · rw [State.clip_setClip]
    split
    · next e => subst e; exact clips _
    · exact clips d
  · rw [State.clip_setClip] at hd ⊢
    split at hd
    · exact absurd hd h
    · next e => rw [if_neg e]; exact defined d hd
  · refine List.countP_congr fun d hd => ?_
    have other : c ≠ d := fun e => unused (e ▸ hd)
    unfold State.clipTouches
    rw [State.clip_setClip, if_neg other]

theorem doClipDefine (w : ClipWire) : OwnerKeeps (doClipDefine w) := fun s => by
  unfold Machine.doClipDefine
  split
  · exact refl s
  · split
    · exact refl s
    · unfold State.defineClip
      split
      · exact refl s
      split
      · exact refl s
      next unused =>
      split
      · exact refl s
      · exact setRecord unused _

theorem doClipDelete (clip : Byte) : OwnerKeeps (doClipDelete clip) := fun s => by
  unfold Machine.doClipDelete
  split
  · exact refl s
  split
  · exact refl s
  split
  · exact refl s
  · next unused => exact setRecord unused none

theorem doClipRead (clip : Byte) : OwnerKeeps (doClipRead clip) := fun s => by
  unfold Machine.doClipRead
  split <;> exact refl s

theorem doStoreRead (addr : Addr) (count : Half) : OwnerKeeps (doStoreRead addr count) := fun s => by
  unfold Machine.doStoreRead
  repeat' split
  all_goals exact refl s

theorem beginOn (s : State) (i : Fin 128) (r : OpRecord) : Keeps s (s.beginOn i r).2 := by
  unfold State.beginOn
  repeat' split
  · exact refl s
  · exact refl s
  · exact refl s
  · exact (Aside.beginStep s r).keeps

theorem doStoreProgram (addr : Addr) (data : List Byte) : OwnerKeeps (doStoreProgram addr data) := fun s => by
  unfold Machine.doStoreProgram
  repeat' split
  · exact refl s
  · exact refl s
  · exact refl s
  · exact beginOn ..

theorem doStoreErase (sector : Byte) : OwnerKeeps (doStoreErase sector) := fun s => by
  unfold Machine.doStoreErase
  split
  · exact refl s
  · exact beginOn ..

theorem doSetupCommit : OwnerKeeps doSetupCommit := fun s => by
  unfold Machine.doSetupCommit
  split
  · exact refl s
  · exact (Aside.beginStep ..).keeps

theorem doCueWrite (slot : Byte) (block : List Byte) : OwnerKeeps (doCueWrite slot block) := fun s => by
  unfold Machine.doCueWrite
  split
  · exact refl s
  split
  · exact refl s
  unfold State.writeCue
  split
  · exact refl s
  split
  · exact refl s
  next b _ _ _ =>
  have filled : Keeps s (s.setCue slot.toFin (some b)) := beside rfl rfl rfl (fun _ => rfl) rfl rfl
  exact (filled.trans (wakeStarved ..)).answered _

theorem doCueClear (first last : Byte) : OwnerKeeps (doCueClear first last) := fun s => by
  unfold Machine.doCueClear
  repeat' split
  · exact refl s
  · exact refl s
  · exact refl s
  · exact beside rfl rfl rfl (fun _ => rfl) rfl rfl

theorem doCueRead (first count : Byte) : OwnerKeeps (doCueRead first count) := fun s => by
  unfold Machine.doCueRead
  split <;> exact refl s

theorem onLane (lane : Byte) {f : Fin 4 → Taking} (hf : ∀ l, OwnerKeeps (f l)) : OwnerKeeps (onLane lane f) := fun s => by
  unfold Machine.onLane
  split
  · exact refl s
  · exact hf _ s

theorem doLaneStart (lane slot clear : Byte) : OwnerKeeps (doLaneStart lane slot clear) :=
  onLane lane fun l s => by
    unfold State.laneStartAt
    split
    · exact (startLane ..).answered _
    · exact (startLane ..).answered _
    all_goals exact refl s

theorem doLanePause (lane : Byte) : OwnerKeeps (doLanePause lane) := onLane lane fun l s => pauseRequest s l

theorem doLaneResume (lane : Byte) : OwnerKeeps (doLaneResume lane) := onLane lane fun l s => resumeLane s l

theorem doLaneAbort (lane voices : Byte) : OwnerKeeps (doLaneAbort lane voices) := onLane lane fun l s => by
  split
  · exact refl s
  · exact (abortLane ..).answered _

theorem doLaneStatus (lane : Byte) : OwnerKeeps (doLaneStatus lane) := onLane lane fun _ s => refl s

theorem doAutostartSet (lane enabled slot : Byte) : OwnerKeeps (doAutostartSet lane enabled slot) :=
  onLane lane fun l s => by
    split
    · exact refl s
    · exact beside rfl rfl rfl (fun _ => rfl) rfl rfl

theorem doVoicePlay (w : OrderWire) : OwnerKeeps (doVoicePlay w) := fun s => by
  unfold Machine.doVoicePlay
  split
  · exact refl s
  · next o _ =>
    have order := takeOrder s o .link
    unfold State.playAnswer
    split <;> next e => rw [e] at order; exact order

theorem onVoice (voice g : Byte) {f : State → Handle → Status × State} (hf : ∀ s h, Keeps s (f s h).2) :
    OwnerKeeps (onVoice voice g f) := fun s => by
  unfold Machine.onVoice
  split
  · exact refl s
  · exact hf ..

theorem doVoiceRamp (voice g : Byte) (target : Half) (rate scale mode notify : Byte) :
    OwnerKeeps (doVoiceRamp voice g target rate scale mode notify) := fun s => by
  unfold Machine.doVoiceRamp
  repeat' split
  · exact refl s
  · exact refl s
  · exact opRamp ..

theorem doVoiceStatus (voice : Byte) : OwnerKeeps (doVoiceStatus voice) := fun s => by
  unfold Machine.doVoiceStatus
  split <;> exact refl s

theorem doFilterSet (count : Byte) (codes : List Code) : OwnerKeeps (doFilterSet count codes) := fun s => by
  unfold Machine.doFilterSet
  repeat' split
  · exact refl s
  · exact refl s
  · exact refl s
  · exact beside rfl rfl rfl (fun _ => rfl) rfl rfl

theorem doBindSet (w : BindingWire) : OwnerKeeps (doBindSet w) := fun s => by
  unfold Machine.doBindSet
  repeat' split
  · exact refl s
  · exact refl s
  · exact refl s
  · exact beside rfl rfl rfl (fun _ => rfl) rfl rfl

theorem doBindClear (binding : Byte) : OwnerKeeps (doBindClear binding) := fun s => by
  unfold Machine.doBindClear
  repeat' split
  · exact refl s
  · exact refl s
  · exact beside rfl rfl rfl (fun _ => rfl) rfl rfl

theorem doBindRead (binding : Byte) : OwnerKeeps (doBindRead binding) := fun s => by
  unfold Machine.doBindRead
  split <;> exact refl s

theorem doTriggerSet (rate report : Byte) : OwnerKeeps (doTriggerSet rate report) := fun s => by
  unfold Machine.doTriggerSet
  repeat' split
  · exact refl s
  · exact refl s
  · exact beside rfl rfl rfl (fun _ => rfl) rfl rfl

theorem doOutputSet (mode : Byte) (left right : Half) (mute zone : Byte) :
    OwnerKeeps (doOutputSet mode left right mute zone) := fun s => by
  unfold Machine.doOutputSet
  repeat' split
  · exact refl s
  · exact refl s
  · exact beside rfl rfl rfl (fun _ => rfl) rfl rfl

theorem doEventRead (count : Byte) : OwnerKeeps (doEventRead count) := fun s => by
  unfold Machine.doEventRead
  split
  · exact refl s
  · have notices : Keeps s s.releaseNotices := foldl State.postNotice postNotice _ _
    exact notices.trans (beside rfl rfl rfl (fun _ => rfl) rfl rfl)

theorem doTallyRead (choice : Byte) : OwnerKeeps (doTallyRead choice) := fun s => by
  unfold Machine.doTallyRead
  split
  · exact refl s
  · exact beside rfl rfl rfl (fun _ => rfl) rfl rfl

end Keeps

/-! ### The resets -/

/-- A state with every voice FREE, no claim listed and no use count left: what each reset makes. -/
structure State.Unclaimed (s : State) : Prop where
  free : ∀ v : Fin 16, (s.voice v).body = .free
  age : s.alc.age = []
  clips : ∀ c : Fin 64, (s.clip c).useCount = 0
  sectors : ∀ i : Fin 128, (s.sectors.get i).useCount = 0

section

variable {s : State}

theorem State.Unclaimed.ageLaw (h : s.Unclaimed) : s.ageLaw :=
  ⟨by rw [h.age]; exact List.nodup_nil, fun v => by rw [h.age, (Voice.isFree_iff _).2 (h.free v)]; simp⟩

/-- With every voice FREE the law of the use counts is that there are none. -/
theorem State.useLaw_of_free (free : ∀ v : Fin 16, (s.voice v).body = .free) (clips : ∀ c : Fin 64, (s.clip c).useCount = 0)
    (sectors : ∀ i : Fin 128, (s.sectors.get i).useCount = 0) : s.useLaw := by
  have claims : s.claims = [] := State.claims_of_all_free free
  refine ⟨fun c => ?_, fun c hc => ?_, fun i => ?_⟩
  · rw [claims]; exact clips c
  · rw [clips c] at hc; exact absurd hc (Nat.lt_irrefl 0)
  · rw [claims]; exact sectors i

theorem State.Unclaimed.useLaw (h : s.Unclaimed) : s.useLaw := State.useLaw_of_free h.free h.clips h.sectors

end

/-- The warm reset takes every claim off (R23, R135, R136). -/
theorem State.unclaimed_warmReset (s : State) : s.warmReset.Unclaimed where
  free _ := congrArg Voice.body (Table.get_map ..)
  age := rfl
  clips _ := congrArg Clip.useCount (Table.get_map ..)
  sectors _ := congrArg Sector.useCount (Table.get_map ..)

/-- The cold reset's tables, with any sectors without a claim (R22, R136). -/
theorem State.unclaimed_cold {s : State} (hv : s.voices = State.reset.voices) (ha : s.alc = State.reset.alc)
    (hc : s.clips = State.reset.clips) (hs : ∀ i : Fin 128, (s.sectors.get i).useCount = 0) : s.Unclaimed where
  free v := by unfold State.voice; rw [hv]; exact congrArg Voice.body (State.voice_reset v)
  age := by rw [ha]; rfl
  clips c := by unfold State.clip; rw [hc]; exact congrArg Clip.useCount (State.clip_reset c)
  sectors := hs

theorem Keeps.doResetWarm : OwnerKeeps doResetWarm := fun s =>
  ⟨fun _ => s.unclaimed_warmReset.ageLaw, fun _ => s.unclaimed_warmReset.useLaw, rfl, rfl⟩

theorem Keeps.doResetCold : OwnerKeeps doResetCold := fun _ => Keeps.beside rfl rfl rfl (fun _ => rfl) rfl rfl

theorem Keeps.takeReset (kind : Byte) : OwnerKeeps (takeReset kind) := by
  unfold Machine.takeReset
  split
  · exact doResetWarm
  · exact doResetCold
  · exact refl

end Sys2Proof.Machine
end

section
/-! PROOFS. Every command, by the request it is or the event it is: the laws of the age list and of the use counts go over (R50, R52,
R120, R122). -/

namespace Sys2Proof.Machine

/-! ### Requests (R164 to R166) -/

namespace Keeps

theorem takeRequest {f : Taking} (hf : OwnerKeeps f) (s : State) (tag type : Byte) : Keeps s (s.takeRequest tag type f) :=
  ((beside rfl rfl rfl (fun _ => rfl) rfl rfl : Keeps s s.oweReply).trans (hf _)).trans
    (beside rfl rfl rfl (fun _ => rfl) rfl rfl)

theorem request {f : Taking} (hf : OwnerKeeps f) (s : State) (tag type : Byte) : Keeps s (s.request tag type f) := by
  unfold State.request
  split
  · exact refl s
  · split
    · exact raise ..
    · exact takeRequest hf ..

theorem sized (n : Nat) (payload : List Byte) {f : (Nat → Byte) → Taking} (hf : ∀ p, OwnerKeeps (f p)) :
    OwnerKeeps (sized n payload f) := by
  unfold Machine.sized
  split
  · exact hf _
  · exact refl

theorem takeFilterSet (payload : List Byte) : OwnerKeeps (takeFilterSet payload) := by
  unfold Machine.takeFilterSet
  split
  · exact refl
  · split
    · exact doFilterSet _ _
    · exact refl

/-- Whatever a type and a payload spell (R166, R174). -/
theorem requestOf (type : Byte) (payload : List Byte) : OwnerKeeps (requestOf type payload) := by
  unfold Machine.requestOf
  split
  · exact sized _ _ fun _ => refl
  · exact sized _ _ fun p => takeReset (p 0)
  · exact sized _ _ fun p => doLinkSet (p 0)
  · exact sized _ _ fun p => doClipDefine (clipWire p)
  · exact sized _ _ fun p => doClipDelete (p 0)
  · exact sized _ _ fun p => doClipRead (p 0)
  · exact sized _ _ fun p => doStoreRead (addr p 0) (half p 3)
  · exact sized _ _ fun p => doStoreProgram (addr p 0) (payload.drop 3)
  · exact sized _ _ fun p => doStoreErase (p 0)
  · exact sized _ _ fun _ => refl
  · exact sized _ _ fun _ => doSetupCommit
  · exact sized _ _ fun p => doCueWrite (p 0) (payload.drop 1)
  · exact sized _ _ fun p => doCueClear (p 0) (p 1)
  · exact sized _ _ fun p => doCueRead (p 0) (p 1)
  · exact sized _ _ fun p => doLaneStart (p 0) (p 1) (p 2)
  · exact sized _ _ fun p => doLanePause (p 0)
  · exact sized _ _ fun p => doLaneResume (p 0)
  · exact sized _ _ fun p => doLaneAbort (p 0) (p 1)
  · exact sized _ _ fun p => doLaneStatus (p 0)
  · exact sized _ _ fun p => doAutostartSet (p 0) (p 1) (p 2)
  · exact sized _ _ fun p => doVoicePlay (orderWire p)
  · exact sized _ _ fun p => doVoiceRamp (p 0) (p 1) (half p 2) (p 4) (p 5) (p 6) (p 7)
  · exact sized _ _ fun p => onVoice (p 0) (p 1) opRelease
  · exact sized _ _ fun p => onVoice (p 0) (p 1) opStop
  · exact sized _ _ fun p => onVoice (p 0) (p 1) opHold
  · exact sized _ _ fun p => onVoice (p 0) (p 1) opContinue
  · exact sized _ _ fun p => doVoiceStatus (p 0)
  · exact takeFilterSet payload
  · exact sized _ _ fun p => doBindSet (bindingWire p)
  · exact sized _ _ fun p => doBindClear (p 0)
  · exact sized _ _ fun p => doBindRead (p 0)
  · exact sized _ _ fun p => doTriggerSet (p 0) (p 1)
  · exact sized _ _ fun p => doOutputSet (p 0) (half p 1) (half p 3) (p 5) (p 6)
  · exact sized _ _ fun p => doEventRead (p 0)
  · exact sized _ _ fun p => doTallyRead (p 0)
  · exact refl

end Keeps

/-- A host request is a request to an owner that keeps the laws (log 1). -/
theorem exec_of_requestHead {c : Instr} {tag type : Byte} (h : requestHead c = some (tag, type)) :
    ∃ f, OwnerKeeps f ∧ ∀ s, exec c s = .next (s.request tag type f) := by
  cases c with
  | identify => cases h; exact ⟨doIdentify, Keeps.refl, fun _ => rfl⟩
  | resetWarm => cases h; exact ⟨_, Keeps.doResetWarm, fun _ => rfl⟩
  | resetCold => cases h; exact ⟨_, Keeps.doResetCold, fun _ => rfl⟩
  | linkSet => cases h; exact ⟨_, Keeps.doLinkSet _, fun _ => rfl⟩
  | clipDefine => cases h; exact ⟨_, Keeps.doClipDefine _, fun _ => rfl⟩
  | clipDelete => cases h; exact ⟨_, Keeps.doClipDelete _, fun _ => rfl⟩
  | clipRead => cases h; exact ⟨_, Keeps.doClipRead _, fun _ => rfl⟩
  | storeRead => cases h; exact ⟨_, Keeps.doStoreRead _ _, fun _ => rfl⟩
  | storeProgram => cases h; exact ⟨_, Keeps.doStoreProgram _ _, fun _ => rfl⟩
  | storeErase => cases h; exact ⟨_, Keeps.doStoreErase _, fun _ => rfl⟩
  | storeStatus => cases h; exact ⟨doStoreStatus, Keeps.refl, fun _ => rfl⟩
  | setupCommit => cases h; exact ⟨_, Keeps.doSetupCommit, fun _ => rfl⟩
  | cueWrite => cases h; exact ⟨_, Keeps.doCueWrite _ _, fun _ => rfl⟩
  | cueClear => cases h; exact ⟨_, Keeps.doCueClear _ _, fun _ => rfl⟩
  | cueRead => cases h; exact ⟨_, Keeps.doCueRead _ _, fun _ => rfl⟩
  | laneStart => cases h; exact ⟨_, Keeps.doLaneStart _ _ _, fun _ => rfl⟩
  | lanePause => cases h; exact ⟨_, Keeps.doLanePause _, fun _ => rfl⟩
  | laneResume => cases h; exact ⟨_, Keeps.doLaneResume _, fun _ => rfl⟩
  | laneAbort => cases h; exact ⟨_, Keeps.doLaneAbort _ _, fun _ => rfl⟩
  | laneStatus => cases h; exact ⟨_, Keeps.doLaneStatus _, fun _ => rfl⟩
  | autostartSet => cases h; exact ⟨_, Keeps.doAutostartSet _ _ _, fun _ => rfl⟩
  | voicePlay => cases h; exact ⟨_, Keeps.doVoicePlay _, fun _ => rfl⟩
  | voiceRamp => cases h; exact ⟨_, Keeps.doVoiceRamp _ _ _ _ _ _ _, fun _ => rfl⟩
  | voiceRelease => cases h; exact ⟨_, Keeps.onVoice _ _ Keeps.opRelease, fun _ => rfl⟩
  | voiceStop => cases h; exact ⟨_, Keeps.onVoice _ _ Keeps.opStop, fun _ => rfl⟩
  | voiceHold => cases h; exact ⟨_, Keeps.onVoice _ _ Keeps.opHold, fun _ => rfl⟩
  | voiceContinue => cases h; exact ⟨_, Keeps.onVoice _ _ Keeps.opContinue, fun _ => rfl⟩
  | voiceStatus => cases h; exact ⟨_, Keeps.doVoiceStatus _, fun _ => rfl⟩
  | filterSet => cases h; exact ⟨_, Keeps.doFilterSet _ _, fun _ => rfl⟩
  | bindSet => cases h; exact ⟨_, Keeps.doBindSet _, fun _ => rfl⟩
  | bindClear => cases h; exact ⟨_, Keeps.doBindClear _, fun _ => rfl⟩
  | bindRead => cases h; exact ⟨_, Keeps.doBindRead _, fun _ => rfl⟩
  | triggerSet => cases h; exact ⟨_, Keeps.doTriggerSet _ _, fun _ => rfl⟩
  | outputSet => cases h; exact ⟨_, Keeps.doOutputSet _ _ _ _ _, fun _ => rfl⟩
  | eventRead => cases h; exact ⟨_, Keeps.doEventRead _, fun _ => rfl⟩
  | tallyRead => cases h; exact ⟨_, Keeps.doTallyRead _, fun _ => rfl⟩
  | _ => cases h

/-! ### The host line (R161, R162, R164) -/

namespace Keeps

theorem link (s : State) (x : Lnk) : Keeps s { s with lnk := x } := beside rfl rfl rfl (fun _ => rfl) rfl rfl

theorem trigger (s : State) (x : Trg) : Keeps s { s with trg := x } := beside rfl rfl rfl (fun _ => rfl) rfl rfl

theorem noteLnk (s : State) (r : Reception) : Keeps s (s.noteLnk r) := by
  unfold State.noteLnk
  split
  · exact refl s
  · exact link ..

theorem takeFrame (s : State) (bytes : List Byte) (length : Nat) : Keeps s (s.takeFrame bytes length) := by
  unfold State.takeFrame
  dsimp only
  split
  · exact raise ..
  · split
    · exact raise ..
    · exact takeRequest (requestOf _ _) ..

theorem discardFrame (s : State) : Keeps s s.discardFrame := (link ..).trans (raise ..)

theorem hostTake (s : State) (b : Byte) (good : Bool) : Keeps s (s.hostTake b good) := by
  have kept (held : List Byte) : Keeps s (s.keepByte held) := by
    unfold State.keepByte
    split
    · exact link ..
    · split
      · exact discardFrame s
      · split
        · exact link ..
        · exact (link ..).trans (takeFrame ..)
  unfold State.hostTake
  split
  · exact refl s
  · split
    · exact link ..
    · exact refl s
  · split
    · exact kept _
    · exact discardFrame s

theorem hostByte (s : State) (b : Byte) (good : Bool) : Keeps s (s.hostByte b good) := by
  unfold State.hostByte
  split
  · exact noteLnk ..
  · exact (noteLnk ..).trans (hostTake ..)

theorem hostLine (s : State) (good : Bool) (e : LineEvent) : Keeps s (s.hostLine good e) := by
  cases e with
  | startBit => exact noteLnk ..
  | byte b => exact hostByte ..

theorem hostGapFrame (s : State) : Keeps s s.hostGapFrame := by
  unfold State.hostGapFrame
  split
  · split
    · exact discardFrame s
    · exact link ..
  · exact refl s

/-! ### The trigger line (R100 to R110) -/

theorem bindingActs (s : State) (i : Fin 32) : Keeps s (s.bindingActs i) := by
  have loaded (b : Binding) : Keeps s (s.setBinding i b) := trigger ..
  unfold State.bindingActs
  dsimp only
  split
  · exact raise ..
  · have start := bindingStart (s.setBinding i { s.binding i with holdoffLeft := (s.binding i).holdoff * 10 }) i (s.binding i)
    split
    · next e => rw [e] at start; exact ((loaded _).trans start).trans (raise ..)
    · next e => rw [e] at start; exact (loaded _).trans start

theorem fireBindings (s : State) (c : Code) : Keeps s (s.fireBindings c).2 := by
  have each (l : List (Fin 32)) (m : Bool) (s : State) : Keeps s
      (l.foldl (fun (m, s) i => if (s.binding i).matches c then (true, s.bindingActs i) else (m, s)) (m, s)).2 := by
    induction l generalizing m s with
    | nil => exact refl s
    | cons i l ih =>
      rw [List.foldl_cons]
      dsimp only
      split
      · exact (bindingActs s i).trans (ih true _)
      · exact ih m s
  exact each _ _ s

theorem routeCode (s : State) (c : Code) : Keeps s (s.routeCode c) := by
  have reported (b : Prop) [Decidable b] (r : Byte) (u : State) : Keeps u (if b then u.postTrigger r c else u) := by
    split
    · exact post ..
    · exact refl u
  unfold State.routeCode
  refine (reported (s.trg.report = .all) 0 s).trans ?_
  generalize (if s.trg.report = .all then s.postTrigger 0 c else s) = u
  have woken : Keeps u (u.reportCode c).2 := wakeInTurn ..
  dsimp only
  refine woken.trans ((fireBindings _ c).trans ?_)
  split
  · exact (raise ..).trans (reported ..)
  · exact refl _

theorem noteTrg (s : State) (r : Reception) : Keeps s (s.noteTrg r) := by
  unfold State.noteTrg
  split
  · exact refl s
  · exact trigger ..

theorem trigTake (s : State) (b : Byte) (good : Bool) : Keeps s (s.trigTake b good) := by
  have frame (u : State) (held : List Byte) : Keeps u (u.trigFrame held) := by
    unfold State.trigFrame
    dsimp only
    split
    · exact raise ..
    · split
      · exact routeCode ..
      · exact refl u
  unfold State.trigTake
  split
  · exact refl s
  · split
    · exact trigger ..
    · exact refl s
  · split
    · dsimp only
      split
      · exact trigger ..
      · exact (trigger ..).trans (frame ..)
    · exact (trigger ..).trans (raise ..)

theorem trigByte (s : State) (b : Byte) (good : Bool) : Keeps s (s.trigByte b good) := by
  unfold State.trigByte
  split
  · exact noteTrg ..
  · exact (noteTrg ..).trans (trigTake ..)

theorem trigLine (s : State) (good : Bool) (e : LineEvent) : Keeps s (s.trigLine good e) := by
  cases e with
  | startBit => exact noteTrg ..
  | byte b => exact trigByte ..

theorem trigGapFrame (s : State) : Keeps s s.trigGapFrame := by
  unfold State.trigGapFrame
  split
  · split
    · exact (trigger ..).trans (raise ..)
    · exact trigger ..
  · exact refl s

/-! ### Time (R137, R138, log 3) -/

theorem voicesThrough (s : State) (last : Nat) : Keeps s (s.voicesThrough last) := by
  rw [State.voicesThrough_eq]
  exact foldl _ voiceFrame ..

theorem lanesThrough (s : State) (last : Nat) : Keeps s (s.lanesThrough last) := by
  have settled : Keeps s s.settleTicked := by
    unfold State.settleTicked
    split
    · exact refl s
    · exact settle ..
  unfold State.lanesThrough
  split
  · exact refl s
  · exact settled.trans (tickInTurn ..)

theorem tickRest (s : State) : Keeps s s.tickRest :=
  (((Aside.countShare s).keeps.trans (lanesThrough ..)).trans (Aside.holdoffShare _).keeps).trans (Aside.storeShare _).keeps

theorem endFrame (s : State) : Keeps s s.endFrame := by
  have tick : Keeps s (if s.tickComes = true then s.tickRest else s) := by
    split
    · exact tickRest s
    · exact refl s
  exact tick.trans (Aside.out ..).keeps

theorem frame (s : State) : Keeps s s.frame := by
  have host (u : State) : Keeps u u.hostGapShare := by
    unfold State.hostGapShare
    split
    · exact refl u
    · exact hostGapFrame u
  have trig (u : State) : Keeps u u.trigGapShare := by
    unfold State.trigGapShare
    split
    · exact refl u
    · exact trigGapFrame u
  exact ((((voicesThrough s 15).trans (Aside.mixFrame _).keeps).trans (host _)).trans (trig _)).trans (endFrame _)

/-- A command of log 3 that takes a share of the coming frame ahead, or has no effect. -/
theorem ahead {s t : State} (h : Keeps s t) (b : Bool) (p : Progress) :
    Keeps s (if b = true then { t with progress := p } else s) := by
  split
  · exact h.trans (Aside.progress ..).keeps
  · exact refl s

theorem laneAhead (s : State) (l : Fin 4) (b : Bool) : Keeps s (if b = true then s.laneAhead l else s) :=
  ahead ((Aside.countShare s).keeps.trans (lanesThrough ..)) b _

theorem nextSignal (s : State) : Keeps s s.nextSignal := by
  unfold State.nextSignal
  split
  · exact refl s
  · next rest _ =>
    have taken : Keeps s { s with signals := rest } := beside rfl rfl rfl (fun _ => rfl) rfl rfl
    exact taken.trans (wakeInTurn ..)

theorem nextAutostart (s : State) : Keeps s s.nextAutostart := by
  unfold State.nextAutostart
  split
  · exact refl s
  · next rest _ =>
    have taken : Keeps s { s with autostartDue := rest } := beside rfl rfl rfl (fun _ => rfl) rfl rfl
    dsimp only
    split
    · exact taken.trans (startLane ..)
    · exact taken

end Keeps

end Sys2Proof.Machine
end

section
/-! PROOFS. Every step keeps the law of the age list and the claims counted, and a part that is still to load or has no power stays
quiet (R22, R50, R52, R97, R115, R120, R122, R171). -/

namespace Sys2Proof.Machine

/-! ### The cold states (R22, R136, R171) -/

/-- The state that a cold reset, a power-up and a loss of supply come to: no claim stands and the part is quiet. -/
structure State.Restarted (s : State) : Prop where
  unclaimed : s.Unclaimed
  quiet : s.Quiet

theorem State.quiet_reset : State.reset.Quiet := (State.coldLaw_iff _).1 State.coldLaw_reset (.inr rfl)

/-- A state that is State.reset but for the sectors, the store and what no law reads. -/
theorem State.restarted_of_reset {s : State} (a : Aside { State.reset with power := s.power, loadDue := s.loadDue } s) :
    s.Restarted where
  unclaimed := State.unclaimed_cold a.voices a.alc a.clips fun i => by
    rw [a.sectors]; exact congrArg Sector.useCount (State.get_sectors_reset i)
  quiet := a.quiet ⟨State.quiet_reset.voices, State.quiet_reset.lanes, rfl, rfl, rfl, rfl, rfl⟩

/-- Every use count is 0 in a sector table that has been gone through. -/
theorem useCount_map {f : Sector → Sector} (h : ∀ x, (f x).useCount = 0) (t : Table Sector 128) (i : Fin 128) :
    ((t.map f).get i).useCount = (State.reset.sectors.get i).useCount := by
  rw [Table.get_map, h, State.get_sectors_reset]
  rfl

theorem State.restarted_coldReset (s : State) : s.coldReset.Restarted :=
  State.restarted_of_reset ⟨rfl, rfl, rfl, useCount_map (f := Sector.unused) (fun _ => rfl) _, rfl, rfl, rfl, rfl, rfl, rfl⟩

theorem State.restarted_powerOn {s : State} (h : s.power = false) : s.powerOn.Restarted := by
  unfold State.powerOn
  rw [if_neg (by simp [h])]
  exact State.restarted_of_reset
    ⟨rfl, rfl, rfl, useCount_map (f := Sector.poweredUp) (fun _ => rfl) _, rfl, rfl, rfl, rfl, rfl, rfl⟩

theorem State.restarted_powerOff {s : State} (h : s.power = true) : s.powerOff.Restarted := by
  unfold State.powerOff
  rw [if_pos h]
  exact State.restarted_of_reset
    ⟨rfl, rfl, rfl, useCount_map (f := Sector.unpowered) (fun _ => rfl) _, rfl, rfl, rfl, rfl, rfl, rfl⟩

/-- What a command other than SETUP_LOAD comes to: the laws go over, or the part restarts. -/
def KeepsOrRestarts (s t : State) : Prop := Keeps s t ∨ t.Restarted

theorem Keeps.replyEnds (s : State) : KeepsOrRestarts s s.replyEnds := by
  unfold State.replyEnds
  split
  · exact .inl (Keeps.link ..)
  · exact .inl (Keeps.link ..)
  · exact .inr (State.restarted_coldReset _)

theorem Keeps.assertNrst (s : State) : KeepsOrRestarts s s.assertNrst := by
  unfold State.assertNrst
  split
  · exact .inl (Keeps.refl s)
  · split
    · exact .inr (State.restarted_coldReset _)
    · exact .inl (Keeps.beside rfl rfl rfl (fun _ => rfl) rfl rfl)

theorem Keeps.powerOn (s : State) : KeepsOrRestarts s s.powerOn := by
  cases h : s.power with
  | false => exact .inr (State.restarted_powerOn h)
  | true => unfold State.powerOn; rw [if_pos h]; exact .inl (Keeps.refl s)

theorem Keeps.powerOff (s : State) : KeepsOrRestarts s s.powerOff := by
  cases h : s.power with
  | true => exact .inr (State.restarted_powerOff h)
  | false => unfold State.powerOff; rw [if_neg (by simp [h])]; exact .inl (Keeps.refl s)

/-! ### Every command -/

theorem Keeps.ite {s t : State} (h : Keeps s t) (b : Bool) : Keeps s (if b = true then t else s) := by
  split
  · exact h
  · exact refl s

/-- Every command but SETUP_LOAD (log 21 for the outcome). -/
theorem exec_keepsOrRestarts {c : Instr} (hl : c ≠ .setupLoad) (s : State) :
    ∃ t, exec c s = .next t ∧ KeepsOrRestarts s t := by
  cases hc : requestHead c with
  | some p =>
    obtain ⟨f, hf, he⟩ := exec_of_requestHead (tag := p.1) (type := p.2) hc
    exact ⟨_, he s, .inl (Keeps.request hf ..)⟩
  | none =>
    cases c with
    | setupLoad => exact absurd rfl hl
    | hostFrameComplete => exact ⟨_, rfl, .inl (Keeps.hostByte ..)⟩
    | hostGapTimeout => exact ⟨_, rfl, .inl (Keeps.ahead (Keeps.hostGapFrame s) _ _)⟩
    | replySent =>
      refine ⟨_, rfl, ?_⟩
      split
      · exact Keeps.replyEnds s
      · exact .inl (Keeps.refl s)
    | nrstAssert => exact ⟨_, rfl, Keeps.assertNrst s⟩
    | nrstRelease => exact ⟨_, rfl, .inl (Keeps.beside rfl rfl rfl (fun _ => rfl) rfl rfl)⟩
    | powerUp => exact ⟨_, rfl, Keeps.powerOn s⟩
    | autostartEntry => exact ⟨_, rfl, .inl (Keeps.nextAutostart s)⟩
    | triggerFrameComplete => exact ⟨_, rfl, .inl (Keeps.trigByte ..)⟩
    | trigGapTimeout => exact ⟨_, rfl, .inl (Keeps.ahead (Keeps.trigGapFrame s) _ _)⟩
    | frame => exact ⟨_, rfl, .inl (Keeps.ite (Keeps.frame s) s.power)⟩
    | cutComplete v => exact ⟨_, rfl, .inl (Keeps.ahead (Keeps.voicesThrough s v.val) _ _)⟩
    | rampMoveInstant v => exact ⟨_, rfl, .inl (Keeps.ahead (Keeps.voicesThrough s v.val) _ _)⟩
    | muteRampEnd => exact ⟨_, rfl, .inl (Aside.muteAhead s).keeps⟩
    | msTick => exact ⟨_, rfl, .inl (Keeps.ahead (Keeps.tickRest s) _ _)⟩
    | waitTimeExpiry => exact ⟨_, rfl, .inl (Keeps.laneAhead ..)⟩
    | heldNoticeExpiry => exact ⟨_, rfl, .inl (Keeps.laneAhead ..)⟩
    | holdoffExpiry => exact ⟨_, rfl, .inl (Aside.holdoffAhead ..).keeps⟩
    | stepTimeout => exact ⟨_, rfl, .inl (Aside.stepAhead s).keeps⟩
    | storeStepDone => exact ⟨_, rfl, .inl (Aside.stepDone s).keeps⟩
    | handleNotLive => exact ⟨_, rfl, .inl (Keeps.nextSignal s)⟩
    | retryRound => exact ⟨_, rfl, .inl (Keeps.retryRound s)⟩
    | hostByteReceived => exact ⟨_, rfl, .inl (Keeps.hostLine ..)⟩
    | triggerByteReceived => exact ⟨_, rfl, .inl (Keeps.trigLine ..)⟩
    | powerLoss => exact ⟨_, rfl, Keeps.powerOff s⟩
    | _ => cases hc

/-! ### Loading (R181, R182) -/

/-- Loading replaces no voice and lists no claim. -/
theorem State.ageLaw_load {s : State} (h : s.ageLaw) : s.load.ageLaw := by
  unfold State.load
  split
  · refine Moves.ageLaw_of_eq (s := s) ?_ (fun v => ?_) h
    · exact congrArg Alc.age (State.alc_post ..)
    · exact congrArg Voice.isFree (State.voice_post ..)
  · exact h

/-- The law of the age list goes over at every command (R52). -/
theorem exec_ageLaw {c : Instr} {s t : State} (h : exec c s = .next t) (law : s.ageLaw) : t.ageLaw := by
  by_cases hl : c = .setupLoad
  · subst hl
    cases h
    exact State.ageLaw_load law
  · obtain ⟨u, hu, keeps | restarts⟩ := exec_keepsOrRestarts hl s
    · cases hu.symm.trans h
      exact keeps.age law
    · cases hu.symm.trans h
      exact restarts.unclaimed.ageLaw

/-- The step's own cases: what stands goes on where no command waits, and the first command acts on the rest of the queue. -/
theorem step_cases {s t : State} (h : step s = .next t) :
    t = s.goOn ∨ ∃ c rest, exec c { s with pending := rest } = .next t := by
  unfold step at h
  split at h
  · cases h; exact .inl rfl
  · exact .inr ⟨_, _, h⟩

/-- Settles O57: what stands goes on within the law, and every command keeps it or lists no claim and no voice. -/
theorem stepKeepsTheAgeLaw : Obligations.StepKeepsTheAgeLaw := by
  unfold Obligations.StepKeepsTheAgeLaw
  intro s t law h
  rcases step_cases h with rfl | ⟨c, rest, h⟩
  · exact (Keeps.goOn s).age law
  · exact exec_ageLaw h law

end Sys2Proof.Machine
end

section
/-! PROOFS. A quiet part stays quiet at every command but SETUP_LOAD, so a part that is still to load or has no power stays as it is;
and the claims counted at every step (R22, R50, R97, R115, R120, R122, R171, log 16). -/

namespace Sys2Proof.Machine

namespace State.Quiet

variable {s : State}

/-- What a quiet part does not read may change. -/
theorem of_same {t : State} (q : s.Quiet) (hv : t.voices = s.voices) (hl : t.lanes = s.lanes)
    (hr : t.alc.retry = s.alc.retry) (hh : t.lnk.rx = s.lnk.rx) (ho : t.lnk.replyOwed = s.lnk.replyOwed)
    (ht : t.trg.rx = s.trg.rx) (hd : t.autostartDue = s.autostartDue) : t.Quiet where
  voices v := by unfold State.voice; rw [hv]; exact q.voices v
  lanes l := by unfold State.lane; rw [hl]; exact q.lanes l
  retry := hr.trans q.retry
  host := hh.trans q.host
  owed := ho.trans q.owed
  trig := ht.trans q.trig
  due := hd.trans q.due

/-- A lane that stays IDLE with no wait. -/
theorem setLane (q : s.Quiet) (l : Fin 4) {x : Lane} (hx : x.state = .idle ∧ x.wait = none) : (s.setLane l x).Quiet where
  voices := q.voices
  lanes m := by
    rw [State.lane_setLane]
    split
    · exact hx
    · exact q.lanes m
  retry := q.retry
  host := q.host
  owed := q.owed
  trig := q.trig
  due := q.due

theorem not_running (q : s.Quiet) (l : Fin 4) : (s.lane l).state ≠ .running := by
  rw [(q.lanes l).1]
  decide

/-! ### The two lines are not heard (R100, R161) -/

theorem hostLine (q : s.Quiet) (good : Bool) (e : LineEvent) : s.hostLine good e = s := by
  cases e with
  | startBit => exact State.noteLnk_off q.host _
  | byte b => exact State.hostByte_off q.host b good

theorem trigLine (q : s.Quiet) (good : Bool) (e : LineEvent) : s.trigLine good e = s := by
  cases e with
  | startBit => exact State.noteTrg_off q.trig _
  | byte b => exact State.trigByte_off q.trig b good

theorem hostGap (q : s.Quiet) : s.lnk.gapCounts = false := by simp [Lnk.gapCounts, q.host]

theorem trigGap (q : s.Quiet) : s.trg.gapCounts = false := by simp [Trg.gapCounts, q.trig]

theorem hostGapShare (q : s.Quiet) : s.hostGapShare = s := by
  unfold State.hostGapShare State.hostGapFrame
  rw [if_neg (by simp [q.hostGap] : ¬s.lnk.gapCounts = true), ite_self]

theorem trigGapShare (q : s.Quiet) : s.trigGapShare = s := by
  unfold State.trigGapShare State.trigGapFrame
  rw [if_neg (by simp [q.trigGap] : ¬s.trg.gapCounts = true), ite_self]

/-! ### No lane waits and none runs (R83 to R85) -/

/-- The only work of a lane in a tick is on a held notice (R91). -/
theorem tickLane (q : s.Quiet) (l : Fin 4) : (s.tickLane l).Quiet := by
  unfold State.tickLane
  dsimp only
  rw [(q.lanes l).2]
  dsimp only
  split
  · exact q
  · split
    · unfold State.postNotice
      split
      · exact q
      · exact ((Aside.post ..).quiet q).setLane l (q.lanes l)
    · exact q.setLane l ⟨(q.lanes l).1, rfl⟩

theorem tickInTurn (q : s.Quiet) (ls : List (Fin 4)) : (s.tickInTurn ls).Quiet := by
  induction ls generalizing s with
  | nil => exact q
  | cons l rest ih =>
    have ticked := q.tickLane l
    rw [State.tickInTurn_stands rfl (ticked.not_running l)]
    exact ih ticked

theorem lanesThrough (q : s.Quiet) (last : Nat) : (s.lanesThrough last).Quiet := by
  have settled : s.settleTicked = s := by
    unfold State.settleTicked
    split
    · rfl
    · exact State.settle_stands (q.not_running _) _
  unfold State.lanesThrough
  split
  · exact q
  · rw [settled]
    exact q.tickInTurn _

theorem tickRest (q : s.Quiet) : s.tickRest.Quiet :=
  (Aside.storeShare _).quiet ((Aside.holdoffShare _).quiet (((Aside.countShare s).quiet q).lanesThrough 3))

/-- No lane waits on the handle that a signal names. -/
theorem nextSignal (q : s.Quiet) : s.nextSignal.Quiet := by
  unfold State.nextSignal
  split
  · exact q
  · next h rest _ =>
    have woken : (allLanes.filter fun l => (s.lane l).waitsOnHandle h) = [] := by
      rw [List.filter_eq_nil_iff]
      intro l _
      simp [Lane.waitsOnHandle, (q.lanes l).2]
    have taken : ({ s with signals := rest }).takeSignal h = { s with signals := rest } :=
      congrArg (State.wakeInTurn { s with signals := rest }) woken
    rw [taken]
    exact q.of_same rfl rfl rfl rfl rfl rfl rfl

theorem nextAutostart (q : s.Quiet) : s.nextAutostart = s := by
  unfold State.nextAutostart
  rw [q.due]

/-- No lane is in a START wait. -/
theorem startWait (q : s.Quiet) (l : Fin 4) : (s.lane l).startWait = none := by
  unfold Lane.startWait
  rw [(q.lanes l).1]

theorem retryRound (q : s.Quiet) : s.retryRound.Quiet := by
  have passed (s : State) (h : ∀ l, (s.lane l).startWait = none) (ls : List (Fin 4)) :
      ls.foldl (fun s l => if 0 ≤ l.val ∧ s.alc.retry.isNone then s.retryAt l else s) s = s := by
    induction ls with
    | nil => rfl
    | cons l ls ih =>
      have turn : s.retryAt l = s := by unfold State.retryAt; rw [h l]
      rw [List.foldl_cons, turn, ite_self]
      exact ih
  unfold State.retryRound
  rw [q.retry]
  dsimp only
  split
  · have round : s.clearOffer.retryFrom 0 = s.clearOffer := passed s.clearOffer q.startWait _
    rw [round]
    exact q.of_same rfl rfl rfl rfl rfl rfl rfl
  · exact q

theorem goOn (q : s.Quiet) : s.goOn = s := State.goOn_idle q.retry q.not_running

/-! ### No voice sounds (R3) -/

theorem voicesThrough (q : s.Quiet) (last : Nat) : (s.voicesThrough last).Quiet := by
  obtain ⟨cs, silent⟩ := State.foldl_voiceFrame_free (voicesFrom s.progress.voices last) s fun w _ =>
    (Voice.isFree_iff _).1 (q.voices w)
  rw [State.voicesThrough_eq, silent]
  exact (Aside.out s { s.out with contributions := cs } s.progress).quiet q

theorem frame (q : s.Quiet) : s.frame.Quiet := by
  have mixed := (Aside.mixFrame _).quiet (q.voicesThrough 15)
  unfold State.frame
  rw [mixed.hostGapShare, mixed.trigGapShare]
  have tick : (if (s.voicesThrough 15).mixFrame.tickComes = true then (s.voicesThrough 15).mixFrame.tickRest
      else (s.voicesThrough 15).mixFrame).Quiet := by
    split
    · exact mixed.tickRest
    · exact mixed
  exact (Aside.out ..).quiet tick

/-- A command of log 3 that takes a share of the coming frame ahead, or has no effect. -/
theorem ahead {t : State} (q : s.Quiet) (h : t.Quiet) (b : Bool) (p : Progress) :
    (if b = true then { t with progress := p } else s).Quiet := by
  split
  · exact (Aside.progress ..).quiet h
  · exact q

theorem laneAhead (q : s.Quiet) (l : Fin 4) (b : Bool) : (if b = true then s.laneAhead l else s).Quiet :=
  q.ahead (((Aside.countShare s).quiet q).lanesThrough l.val) b _

end State.Quiet

/-- A restart leaves a quiet part, from any state; every other command but SETUP_LOAD leaves a quiet part quiet. -/
theorem exec_quiet {c : Instr} (hl : c ≠ .setupLoad) {s t : State} (h : exec c s = .next t) (q : s.Quiet) : t.Quiet := by
  cases hc : requestHead c with
  | some p =>
    obtain ⟨f, -, he⟩ := exec_of_requestHead (tag := p.1) (type := p.2) hc
    rw [he, State.request_off q.host] at h
    cases h
    exact q
  | none =>
    cases c with
    | setupLoad => exact absurd rfl hl
    | hostFrameComplete => cases h; rw [State.hostByte_off q.host]; exact q
    | hostGapTimeout =>
      cases h
      unfold State.hostGapAhead
      rw [if_neg (by simp [Lnk.gapEndsNext, q.hostGap])]
      exact q
    | replySent => cases h; rw [if_neg (by simp [q.owed])]; exact q
    | nrstAssert =>
      cases h
      unfold State.assertNrst
      split
      · exact q
      · split
        · exact (State.restarted_coldReset _).quiet
        · exact q.of_same rfl rfl rfl rfl rfl rfl rfl
    | nrstRelease => cases h; exact q.of_same rfl rfl rfl rfl rfl rfl rfl
    | powerUp =>
      cases h
      cases hp : s.power with
      | false => exact (State.restarted_powerOn hp).quiet
      | true => unfold State.powerOn; rw [if_pos hp]; exact q
    | autostartEntry => cases h; rw [q.nextAutostart]; exact q
    | triggerFrameComplete => cases h; rw [State.trigByte_off q.trig]; exact q
    | trigGapTimeout =>
      cases h
      unfold State.trigGapAhead
      rw [if_neg (by simp [Trg.gapEndsNext, q.trigGap])]
      exact q
    | frame => cases h; split; exacts [q.frame, q]
    | cutComplete v => cases h; exact q.ahead (q.voicesThrough v.val) _ _
    | rampMoveInstant v => cases h; exact q.ahead (q.voicesThrough v.val) _ _
    | muteRampEnd => cases h; exact (Aside.muteAhead s).quiet q
    | msTick => cases h; exact q.ahead q.tickRest _ _
    | waitTimeExpiry => cases h; exact q.laneAhead ..
    | heldNoticeExpiry => cases h; exact q.laneAhead ..
    | holdoffExpiry => cases h; exact (Aside.holdoffAhead ..).quiet q
    | stepTimeout => cases h; exact (Aside.stepAhead s).quiet q
    | storeStepDone => cases h; exact (Aside.stepDone s).quiet q
    | handleNotLive => cases h; exact q.nextSignal
    | retryRound => cases h; exact q.retryRound
    | hostByteReceived => cases h; rw [q.hostLine]; exact q
    | triggerByteReceived => cases h; rw [q.trigLine]; exact q
    | powerLoss =>
      cases h
      cases hp : s.power with
      | true => exact (State.restarted_powerOff hp).quiet
      | false => unfold State.powerOff; rw [if_neg (by simp [hp])]; exact q
    | _ => cases hc

/-! ### Loading (R181, R182) -/

theorem mem_of_allSome {α β : Type} {f : α → Option β} {l : List α} {ys : List β} (h : allSome f l = some ys) {y : β}
    (hy : y ∈ ys) : ∃ x ∈ l, f x = some y := by
  induction l generalizing ys with
  | nil => cases h; cases hy
  | cons x xs ih =>
    unfold allSome at h
    split at h
    · next z zs hz hzs =>
      cases h
      rcases List.mem_cons.1 hy with rfl | hy
      · exact ⟨x, List.mem_cons_self, hz⟩
      · obtain ⟨w, hw, e⟩ := ih hzs hy
        exact ⟨w, List.mem_cons_of_mem _ hw, e⟩
    · cases h

/-- A loaded table holds what its record check gives, and the fill. -/
theorem loadTable_all {α : Type} {n size : Nat} {fill : α} {f : List Byte → Option α} {b : List Byte} {t : Table α n}
    {P : α → Prop} (hf : ∀ b x, f b = some x → P x) (hfill : P fill) (h : loadTable n size fill f b = some t) (i : Fin n) :
    P (t.get i) := by
  unfold loadTable at h
  obtain ⟨ys, hys, rfl⟩ := Option.map_eq_some_iff.1 h
  have mem : (Table.ofList n fill ys).get i ∈ ys ++ List.replicate n fill :=
    List.mem_of_mem_take (List.get_mem ..)
  rcases List.mem_append.1 mem with mem | mem
  · obtain ⟨x, -, hx⟩ := mem_of_allSome hys mem
    exact hf x _ hx
  · rw [List.eq_of_mem_replicate mem]
    exact hfill

theorem useCount_loadClip {b : List Byte} {x : Clip} (h : loadClip b = some x) : x.useCount = 0 := by
  unfold loadClip at h
  split at h
  · obtain ⟨r, -, rfl⟩ := Option.map_eq_some_iff.1 h
    rfl
  · cases h
    rfl

/-- A section that is LOADED holds what its fields' check gives (R181 steps 4 and 5). -/
theorem sectionAt_loaded {α : Type} {m : Memory} {ok : Bool} {a length : Nat} {crc : Half} {f : List Byte → Option α} {x : α}
    (h : sectionAt m ok a length crc f = .loaded x) : ∃ b, f b = some x := by
  unfold sectionAt checkSection at h
  split at h
  · split at h
    · cases h
    · split at h
      · cases h
      · next e => cases h; exact ⟨_, e⟩
  · cases h

/-- No loaded clip is in use (R180). -/
theorem useCount_directory (m : Memory) (c : Fin 64) :
    (((loadSections m).directory.getD (Table.const 64 Clip.empty)).get c).useCount = 0 := by
  have empty : ((Table.const 64 Clip.empty).get c).useCount = 0 := congrArg Clip.useCount (Table.get_const ..)
  cases hd : (loadSections m).directory with
  | blank => exact empty
  | corrupt => exact empty
  | loaded t =>
    have read : ∃ b, loadTable 64 19 Clip.empty loadClip b = some t := by
      unfold loadSections at hd
      dsimp only at hd
      split at hd
      · cases hd
      · exact sectionAt_loaded hd
    obtain ⟨b, hb⟩ := read
    exact loadTable_all (P := fun x => x.useCount = 0) (fun _ _ => useCount_loadClip) rfl hb c

/-- Loading happens only on a part with power that is still to load, and it is loaded then. -/
theorem State.load_cases (s : State) : s.load = s ∨ (s.loadDue = true ∧ s.power = true
    ∧ s.load = (s.handOver (loadSections s.mem)).loadingComplete (loadSections s.mem)) := by
  unfold State.load
  split
  · next h =>
    simp only [Bool.and_eq_true] at h
    exact .inr ⟨h.2, h.1.1.1, rfl⟩
  · exact .inl rfl

/-- Before loading no voice sounds, so the new directory replaces no clip in use (R22, R182). -/
theorem State.useLaw_load {s : State} (law : s.useLaw) (cold : s.coldLaw) : s.load.useLaw := by
  rcases s.load_cases with same | ⟨due, -, loaded⟩
  · rw [same]
    exact law
  · have quiet := (State.coldLaw_iff s).1 cold (.inr due)
    have free (v : Fin 16) : (s.voice v).body = .free := (Voice.isFree_iff _).1 (quiet.voices v)
    rw [loaded]
    refine (Aside.post ..).keeps.use (State.useLaw_of_free free (useCount_directory s.mem) fun i => ?_)
    exact (law.2.2 i).trans (by rw [State.claims_of_all_free free]; rfl)

/-- A loaded part has power and nothing to load: the law of the cold part says nothing of it. -/
theorem State.coldLaw_load {s : State} (cold : s.coldLaw) : s.load.coldLaw := by
  rcases s.load_cases with same | ⟨-, power, loaded⟩
  · rw [same]
    exact cold
  · rw [loaded]
    have kept (x : Loaded) : ((s.handOver x).loadingComplete x).power = s.power := State.power_post ..
    have done (x : Loaded) : ((s.handOver x).loadingComplete x).loadDue = false := State.loadDue_post ..
    rintro (off | due)
    · rw [kept, power] at off
      cases off
    · rw [done] at due
      cases due

/-! ### Every command and every step -/

/-- The laws of the use counts and of the cold part go over at every command (R50, R120, R122). -/
theorem exec_useLaw_coldLaw {c : Instr} {s t : State} (h : exec c s = .next t) (law : s.useLaw) (cold : s.coldLaw) :
    t.useLaw ∧ t.coldLaw := by
  by_cases hl : c = .setupLoad
  · subst hl
    cases h
    exact ⟨State.useLaw_load law cold, State.coldLaw_load cold⟩
  · obtain ⟨u, hu, outcome⟩ := exec_keepsOrRestarts hl s
    cases hu.symm.trans h
    rw [State.coldLaw_iff] at cold ⊢
    rcases outcome with keeps | restarts
    · refine ⟨keeps.use law, fun still => exec_quiet hl h (cold ?_)⟩
      rw [← keeps.power, ← keeps.loadDue]
      exact still
    · exact ⟨restarts.unclaimed.useLaw, fun _ => restarts.quiet⟩

/-- Settles O59: by the command, and with none waiting by what goes on, which in a quiet part is nothing. -/
theorem stepKeepsTheClaimsCounted : Obligations.StepKeepsTheClaimsCounted := by
  unfold Obligations.StepKeepsTheClaimsCounted
  intro s t law cold h
  rcases step_cases h with rfl | ⟨c, rest, h⟩
  · have keeps := Keeps.goOn s
    rw [State.coldLaw_iff] at cold ⊢
    refine ⟨keeps.use law, fun still => ?_⟩
    rw [keeps.power, keeps.loadDue] at still
    rw [(cold still).goOn]
    exact cold still
  · exact exec_useLaw_coldLaw h law cold

end Sys2Proof.Machine
end

section
/-! PROOFS. VOICE PLAY as a request to the allocator: what the allocator makes of an order does not depend on the link, and the
reply is the answer (R40, R41, R165); the orders that fail (R42, R47). -/

namespace Sys2Proof.Machine

/-! ### The allocator does not touch the link -/

theorem State.clipChecks_oweReply (s : State) (o : StartOrder) (w : Owner) : s.oweReply.clipChecks o w = s.clipChecks o w := rfl

theorem State.takeClaim_oweReply (s : State) (c : Fin 64) : s.oweReply.takeClaim c = (s.takeClaim c).oweReply := by
  rw [State.takeClaim_eq, State.takeClaim_eq]
  rfl

theorem State.groupAt_oweReply (g : Fin 8) (s : State) (v : Fin 16) :
    State.groupAt g s.oweReply v = (State.groupAt g s v).oweReply := by
  unfold State.groupAt
  rw [State.voice_oweReply, State.stopStart_oweReply, State.cancelSuccessor_oweReply]
  split
  · split <;> rfl
  · split <;> rfl
  · split <;> rfl
  · split <;> rfl
  · rfl
  · rfl

theorem State.groupRule_oweReply (s : State) (g : Fin 8) : s.oweReply.groupRule g = (s.groupRule g).oweReply := by
  unfold State.groupRule
  split
  · rfl
  · generalize allVoices = l
    induction l generalizing s with
    | nil => rfl
    | cons v l ih => rw [List.foldl_cons, List.foldl_cons, State.groupAt_oweReply, ih]

/-- An answer with the state it leaves, in which a reply is owed. -/
def owing {α : Type} (p : α × State) : α × State := (p.1, p.2.oweReply)

section

variable (s : State) (v : Fin 16) (o : StartOrder) (w : Owner) (r : ClipRecord)

theorem State.bindStart_oweReply : s.oweReply.bindStart v o w r = owing (s.bindStart v o w r) := by
  rw [State.bindStart_eq, State.bindStart_eq, State.takeClaim_oweReply]
  rfl

theorem State.attachSuccessor_oweReply : s.oweReply.attachSuccessor v o w = owing (s.attachSuccessor v o w) := by
  have signalled (b : Bool) (h : Handle) :
      (if b = true then s.oweReply.signal h else s.oweReply) = (if b = true then s.signal h else s).oweReply := by
    split <;> rfl
  unfold State.attachSuccessor
  dsimp only
  rw [State.voice_oweReply, signalled, State.takeClaim_oweReply]
  rfl

theorem State.steal_oweReply : s.oweReply.steal v o w r = owing (s.steal v o w r) := by
  unfold State.steal
  have stopped : (s.oweReply.raise .steals).stopStart v .stolen = ((s.raise .steals).stopStart v .stolen).oweReply :=
    State.stopStart_oweReply (s.raise .steals) v .stolen
  dsimp only
  rw [stopped, State.voice_oweReply, State.bindStart_oweReply, State.attachSuccessor_oweReply]
  split <;> rfl

theorem State.chooseVoice_oweReply : s.oweReply.chooseVoice o w r = owing (s.chooseVoice o w r) := by
  have victim : s.oweReply.stealVictim o.priority = s.stealVictim o.priority := rfl
  unfold State.chooseVoice
  simp only [State.voice_oweReply, victim, State.bindStart_oweReply, State.attachSuccessor_oweReply, State.steal_oweReply]
  split
  · rfl
  · split
    · rfl
    · split <;> rfl

theorem State.tryOrder_oweReply : s.oweReply.tryOrder o w = owing (s.tryOrder o w) := by
  unfold State.tryOrder
  rw [State.clipChecks_oweReply]
  split
  · rfl
  · rw [State.groupRule_oweReply, State.chooseVoice_oweReply]

theorem State.takeOrder_oweReply : s.oweReply.takeOrder o w = owing (s.takeOrder o w) := by
  unfold State.takeOrder
  rw [State.tryOrder_oweReply]
  rcases s.tryOrder o w with ⟨a, t⟩
  cases a <;> rfl

end

/-! ### The reply of VOICE PLAY (R41, R165) -/

section

variable {s t : State} {w : OrderWire} {o : StartOrder}

/-- VOICE PLAY of a good payload answers what the allocator answers. -/
theorem exec_voicePlay (hs : s.takesRequests) (ho : orderOf w = .ok o) {a : OrderAnswer} (h : s.takeOrder o .link = (a, t))
    (tag : Byte) : exec (.voicePlay tag w) s
      = .next (t.replying tag 0xB0 (State.playAnswer (a, t)).1.status (State.playAnswer (a, t)).1.data) := by
  show Host.Outcome.next (s.request tag 0x30 (doVoicePlay w)) = _
  rw [State.request_taken hs]
  unfold doVoicePlay
  rw [ho]
  dsimp only
  rw [State.takeOrder_oweReply, h]
  cases a <;> rfl

theorem exec_voicePlay_sounding (hs : s.takesRequests) (ho : orderOf w = .ok o) {v : Fin 16} {g : Byte}
    (h : s.takeOrder o .link = (.sounding ⟨v, g⟩, t)) (tag : Byte) :
    exec (.voicePlay tag w) s = .next (t.replying tag 0xB0 .ok [BitVec.ofNat 8 v.val, g, 0]) := exec_voicePlay hs ho h tag

theorem exec_voicePlay_awaiting (hs : s.takesRequests) (ho : orderOf w = .ok o) {v : Fin 16} {g : Byte}
    (h : s.takeOrder o .link = (.awaiting ⟨v, g⟩, t)) (tag : Byte) :
    exec (.voicePlay tag w) s = .next (t.replying tag 0xB0 .ok [BitVec.ofNat 8 v.val, g, 1]) := exec_voicePlay hs ho h tag

/-- A failure counts in START_FAILS (R47). -/
theorem exec_voicePlay_failed (hs : s.takesRequests) (ho : orderOf w = .ok o) {st : Status}
    (h : s.tryOrder o .link = (.failed st, s)) (tag : Byte) :
    exec (.voicePlay tag w) s = .next ((s.counted 9).replying tag 0xB0 st []) := by
  have counted : s.takeOrder o .link = (.failed st, s.counted 9) := by
    unfold State.takeOrder
    rw [h]
    rfl
  exact exec_voicePlay hs ho counted tag

end

/-! ### The checks of an order from either owner (R42) -/

section

variable {s : State} {o : StartOrder} {r : ClipRecord} {w : Owner}

theorem State.clipChecks_notDefined (h : (s.clip o.clip).record = none) : s.clipChecks o w = .error (.failed .notDefined) := by
  unfold State.clipChecks
  rw [h]

/-- The link's REVERSE on a clip with a loop (R42 check 2). -/
theorem State.clipChecks_badReverse (h : (s.clip o.clip).record = some r) (hb : o.reverse = true ∧ r.loopMode ≠ .none) :
    s.clipChecks o .link = .error .badReverse := by
  unfold State.clipChecks
  rw [h]
  simp [hb.1, hb.2]

/-- The checks of the sectors, where REVERSE passes (R42 checks 3 and 4). -/
theorem State.clipChecks_forward (h : (s.clip o.clip).record = some r) (hf : ¬(o.reverse = true ∧ r.loopMode ≠ .none)) :
    s.clipChecks o w = if s.touchedSector r (fun x => x.busy) = true then .error (.failed .clipBusy)
      else if s.touchedSector r (fun x => x.suspect) = true then .error (.failed .suspect) else .ok r := by
  unfold State.clipChecks
  rw [h]
  dsimp only
  rw [if_neg]
  simp only [Bool.and_eq_true, decide_eq_true_eq]
  exact fun hb => hf hb.1

/-- An order that passes (R42). -/
theorem State.clipChecks_passes (h : (s.clip o.clip).record = some r) (hf : o.reverse = false ∨ r.loopMode = .none)
    (hc : s.sectorsClear r) : s.clipChecks o w = .ok r := by
  rw [State.clipChecks_forward h (by rcases hf with hf | hf <;> simp [hf]),
    if_neg (by rw [Bool.not_eq_true, State.touchedSector_false]; exact fun i hi => (hc i hi).1),
    if_neg (by rw [Bool.not_eq_true, State.touchedSector_false]; exact fun i hi => (hc i hi).2)]

/-- An order that the checks stop leaves the state as it is. -/
theorem State.tryOrder_stopped {a : OrderAnswer} (h : s.clipChecks o w = .error a) : s.tryOrder o w = (a, s) := by
  unfold State.tryOrder
  rw [h]

theorem State.tryOrder_passed (h : s.clipChecks o w = .ok r) :
    s.tryOrder o w = (s.groupRule o.group).chooseVoice o w r := by
  unfold State.tryOrder
  rw [h]

end

/-! ### Voice choice by what the voices hold (R44, R45, R47) -/

section

variable {s : State}

theorem State.find_free_none (h : ∀ v : Fin 16, (s.voice v).body ≠ .free) :
    (allVoices.find? fun v => (s.voice v).isFree) = none := by
  rw [List.find?_eq_none]
  exact fun v _ hf => h v ((Voice.isFree_iff _).1 hf)

theorem State.find_successor_none (h : ∀ (v : Fin 16) a b, (s.voice v).body ≠ .cutting a b none) :
    (allVoices.find? fun v => (s.voice v).takesSuccessor) = none := by
  rw [List.find?_eq_none]
  intro v _ ht
  obtain ⟨a, b, hb⟩ := (Voice.takesSuccessor_iff _).1 ht
  exact h v a b hb

/-- The lowest FREE voice (R44 case 1). -/
theorem State.chooseVoice_binds {v : Fin 16} (hv : (s.voice v).body = .free)
    (hl : ∀ x : Fin 16, x < v → (s.voice x).body ≠ .free) (o : StartOrder) (w : Owner) (r : ClipRecord) :
    s.chooseVoice o w r = s.bindStart v o w r := by
  unfold State.chooseVoice
  rw [find_lowestVoice (v := v) ((Voice.isFree_iff _).2 hv) fun x hx => by
    rw [← Bool.not_eq_true, Voice.isFree_iff]; exact hl x hx]

/-- With no FREE voice the lowest CUTTING voice without a successor (R44 case 2). -/
theorem State.chooseVoice_attaches {v : Fin 16} {y : Sounding} {c : Cut} (hf : ∀ x : Fin 16, (s.voice x).body ≠ .free)
    (hv : (s.voice v).body = .cutting y c none) (hl : ∀ x : Fin 16, x < v → ∀ a b, (s.voice x).body ≠ .cutting a b none)
    (o : StartOrder) (w : Owner) (r : ClipRecord) : s.chooseVoice o w r = s.attachSuccessor v o w := by
  have found : (allVoices.find? fun v => (s.voice v).takesSuccessor) = some v := by
    refine find_lowestVoice ((Voice.takesSuccessor_iff _).2 ⟨y, c, hv⟩) fun x hx => ?_
    rw [← Bool.not_eq_true, Voice.takesSuccessor_iff]
    rintro ⟨a, b, hb⟩
    exact hl x hx a b hb
  unfold State.chooseVoice
  rw [State.find_free_none hf, found]

/-- With neither, the voice that the steal order names (R45). -/
theorem State.chooseVoice_steals {v : Fin 16} (hf : ∀ x : Fin 16, (s.voice x).body ≠ .free)
    (hn : ∀ (x : Fin 16) a b, (s.voice x).body ≠ .cutting a b none) {o : StartOrder} (hv : s.stealVictim o.priority = some v)
    (w : Owner) (r : ClipRecord) : s.chooseVoice o w r = s.steal v o w r := by
  unfold State.chooseVoice
  rw [State.find_free_none hf, State.find_successor_none hn, hv]

/-- The steal order names none: no voice can be had (R47). -/
theorem State.chooseVoice_finds_none (hf : ∀ x : Fin 16, (s.voice x).body ≠ .free)
    (hn : ∀ (x : Fin 16) a b, (s.voice x).body ≠ .cutting a b none) {o : StartOrder} (hv : s.stealVictim o.priority = none)
    (w : Owner) (r : ClipRecord) : s.chooseVoice o w r = (.failed .noVoice, s) := by
  unfold State.chooseVoice
  rw [State.find_free_none hf, State.find_successor_none hn, hv]

/-- Every voice has a successor or sounds at the order's priority or a higher one: none can be had (R47). -/
theorem State.chooseVoice_fails {o : StartOrder} (h : ∀ v : Fin 16, (∃ y c z, (s.voice v).body = .cutting y c (some z))
      ∨ ∃ y, (s.voice v).stands = some y ∧ o.priority ≤ y.priority) (w : Owner) (r : ClipRecord) :
    s.chooseVoice o w r = (.failed .noVoice, s) := by
  have taken (v : Fin 16) : (s.voice v).body ≠ .free ∧ ∀ a b, (s.voice v).body ≠ .cutting a b none := by
    rcases h v with ⟨y, c, z, hb⟩ | ⟨y, hy, -⟩
    · simp [hb]
    · rcases Voice.body_of_stands hy with hb | hb | ⟨q, hb⟩ <;> simp [hb]
  have none_lower : s.stealCandidates o.priority = [] := by
    rw [List.eq_nil_iff_forall_not_mem]
    intro v hv
    obtain ⟨-, y, hy, lower⟩ := State.mem_stealCandidates.1 hv
    rcases h v with ⟨x, c, z, hb⟩ | ⟨x, hx, higher⟩
    · simp [Voice.stands, hb] at hy
    · cases hx.symm.trans hy
      exact absurd lower (not_lt.2 higher)
  have victim : s.stealVictim o.priority = none := by
    unfold State.stealVictim
    rw [none_lower]
    rfl
  exact State.chooseVoice_finds_none (fun v => (taken v).1) (fun v => (taken v).2) victim w r

end

/-- Settles O33: the checks in their order, and the failure for want of a voice. -/
theorem voicePlayFailures : Obligations.VoicePlayFailures := by
  unfold Obligations.VoicePlayFailures
  intro tag w o s hs ho
  refine ⟨fun h => exec_voicePlay_failed hs ho (State.tryOrder_stopped (State.clipChecks_notDefined h)) tag, fun r hr => ?_⟩
  dsimp only
  have busy_iff := State.touchedSector_iff s r fun x => x.busy
  have suspect_iff := State.touchedSector_iff s r fun x => x.suspect
  refine ⟨fun hb => ?_, fun hf hb => ?_, fun hf hb hc => ?_, fun hf hb hc hg hv => ?_⟩
  · have stopped : s.takeOrder o .link = (.badReverse, s) := by
      unfold State.takeOrder
      rw [State.tryOrder_stopped (State.clipChecks_badReverse hr hb)]
    exact exec_voicePlay hs ho stopped tag
  · refine exec_voicePlay_failed hs ho (State.tryOrder_stopped ?_) tag
    rw [State.clipChecks_forward hr hf, if_pos (busy_iff.2 hb)]
  · refine exec_voicePlay_failed hs ho (State.tryOrder_stopped ?_) tag
    rw [State.clipChecks_forward hr hf, if_neg (mt busy_iff.1 hb), if_pos (suspect_iff.2 hc)]
  · refine exec_voicePlay_failed hs ho ?_ tag
    have passes : s.clipChecks o .link = .ok r := by
      rw [State.clipChecks_forward hr hf, if_neg (mt busy_iff.1 hb), if_neg (mt suspect_iff.1 hc)]
    rw [State.tryOrder_passed passes, State.groupRule_alone (.inl hg), State.chooseVoice_fails hv]

end Sys2Proof.Machine
end

section
/-! PROOFS. VOICE PLAY of an order that passes its checks: the voice it takes, the one it steals, and the starts of its group that it
supersedes (R43 to R46, R48, R49, R51). -/

namespace Sys2Proof.Machine

/-! ### A FREE or a CUTTING voice (R44, R48, R49) -/

/-- The fields of a start whose REVERSE the checks have passed (R42 check 2, R48). -/
theorem StartOrder.begin_eq {o : StartOrder} {r : ClipRecord} (h : o.reverse = false ∨ r.loopMode = .none) (w : Owner) :
    o.begin w r =
      { clip := o.clip
        pos := if o.reverse then (r.count - 1) * 4096 else 0
        direction := if o.reverse then .backward else .forward
        step := if o.step = 0 then r.step else o.step
        loopMode := r.loopMode
        loops := o.loopCount
        exit := false
        level := o.level
        ramp := o.ramp.map fun p => p.set o.level
        release := if o.release = none then r.release else o.release
        pan := o.pan
        priority := o.priority
        group := o.group
        noteEnd := o.noteEnd
        owner := w } := by
  have reverse : (o.reverse && decide (r.loopMode = .none)) = o.reverse := by
    rcases h with h | h <;> simp [h]
  unfold StartOrder.begin
  rw [reverse]
  cases o.ramp <;> cases o.release <;> rfl

section

variable {s : State} {o : StartOrder} {r : ClipRecord}

/-- An order that its checks pass, in what the group rule leaves. -/
theorem State.takeOrder_link (hr : (s.clip o.clip).record = some r) (hf : o.reverse = false ∨ r.loopMode = .none)
    (hc : s.sectorsClear r) {p : OrderAnswer × State} (h : (s.groupRule o.group).chooseVoice o .link r = p)
    (hp : ∀ st, p.1 ≠ .failed st) : s.takeOrder o .link = p := by
  unfold State.takeOrder
  rw [State.tryOrder_passed (State.clipChecks_passes hr hf hc), h]
  split
  · next e => exact absurd rfl (hp _)
  · rfl

end

/-- Settles O34: voice choice by the lowest FREE voice, and with none by the lowest CUTTING one without a successor. -/
theorem voicePlayTakesAFreeOrCuttingVoice : Obligations.VoicePlayTakesAFreeOrCuttingVoice := by
  unfold Obligations.VoicePlayTakesAFreeOrCuttingVoice
  intro tag w o r v s hs ho hr hf hc hg
  dsimp only
  have alone : s.groupRule o.group = s := State.groupRule_alone hg
  refine ⟨fun hv hl => ⟨s.takeClaim o.clip, State.claimedMore_takeClaim .., ?_⟩,
    fun y c hn hv hl => ⟨s.takeClaim o.clip, State.claimedMore_takeClaim .., ?_⟩⟩
  · have bound := State.takeOrder_link hr hf hc (by rw [alone, State.chooseVoice_binds hv hl, State.bindStart_eq]) (by simp)
    rw [StartOrder.begin_eq hf] at bound
    have answered := exec_voicePlay_sounding hs ho bound tag
    cases ramp : o.ramp <;> rw [ramp] at answered <;> exact answered
  · have attached := State.takeOrder_link hr hf hc
      (by rw [alone, State.chooseVoice_attaches hn hv hl, State.attachSuccessor_eq hv]) (by simp)
    exact exec_voicePlay_awaiting hs ho attached tag

/-! ### The steal order (R45) -/

/-- A list's first element is the one that comes before every other. -/
theorem head?_of_first {α : Type} {R : α → α → Prop} {l : List α} {a : α} (sorted : l.Pairwise R) (ha : a ∈ l)
    (first : ∀ b ∈ l, b ≠ a → ¬R b a) : l.head? = some a := by
  cases l with
  | nil => cases ha
  | cons b l =>
    rcases List.mem_cons.1 ha with rfl | ha
    · rfl
    · by_cases e : b = a
      · rw [e]; rfl
      · exact absurd (List.rel_of_pairwise_cons sorted ha) (first b List.mem_cons_self e)

/-- A list without repetition is in the order of its places. -/
theorem pairwise_idxOf {α : Type} [DecidableEq α] {l : List α} (h : l.Nodup) :
    l.Pairwise fun a b => l.idxOf a < l.idxOf b := by
  rw [List.pairwise_iff_getElem]
  intro i j hi hj hij
  rw [h.idxOf_getElem i hi, h.idxOf_getElem j hj]
  exact hij

/-- `v`, with its start `y`, comes before every other start that stands: by priority, then RELEASING, then the age of the claim
(R45). -/
def State.StolenFirst (s : State) (v : Fin 16) (y : Sounding) : Prop :=
  ∀ (x : Fin 16) z, x ≠ v → (s.voice x).stands = some z →
    y.priority < z.priority
    ∨ (y.priority = z.priority
      ∧ (((s.voice v).isReleasing = true ∧ (s.voice x).isReleasing = false)
        ∨ ((s.voice v).isReleasing = (s.voice x).isReleasing ∧ s.alc.age.idxOf v < s.alc.age.idxOf x)))

section

variable {s : State} {v x : Fin 16} {y z : Sounding} {p : Fin 8}

/-- The candidates of the lowest priority are those that no candidate is below (R45 test 1). -/
theorem State.mem_lowestOf (hx : (s.voice x).stands = some z) :
    x ∈ s.lowestOf (s.stealCandidates p) ↔ x ∈ s.stealCandidates p
      ∧ ∀ v ∈ s.stealCandidates p, ∀ y, (s.voice v).stands = some y → z.priority ≤ y.priority := by
  unfold State.lowestOf
  rw [List.mem_filter, List.all_eq_true]
  simp only [Voice.stealPriority_eq, hx, Option.map_some]
  refine and_congr_right fun _ => forall₂_congr fun v _ => ?_
  cases (s.voice v).stands <;> simp

/-- The voice that comes first by the steal order is the one a steal takes (R45). -/
theorem State.stealVictim_eq (law : s.ageLaw) (hv : (s.voice v).stands = some y) (lower : y.priority < p)
    (first : s.StolenFirst v y) : s.stealVictim p = some v := by
  have listed : v ∈ s.alc.age := (law.2 v).2 (by
    rcases Voice.body_of_stands hv with hb | hb | ⟨q, hb⟩ <;> exact Moves.nonFree hb rfl)
  have candidate : v ∈ s.stealCandidates p := State.mem_stealCandidates.2 ⟨listed, y, hv, lower⟩
  have low : v ∈ s.lowestOf (s.stealCandidates p) := by
    refine (State.mem_lowestOf hv).2 ⟨candidate, fun x _ z hz => ?_⟩
    by_cases e : x = v
    · subst e
      cases hv.symm.trans hz
      exact le_refl _
    · rcases first x z e hz with h | ⟨h, -⟩
      · exact h.le
      · exact h.le
  -- Another candidate of the lowest priority is behind by one of the last two tests.
  have behind (x : Fin 16) (hx : x ∈ s.lowestOf (s.stealCandidates p)) (e : x ≠ v) :
      ((s.voice v).isReleasing = true ∧ (s.voice x).isReleasing = false)
      ∨ ((s.voice v).isReleasing = (s.voice x).isReleasing ∧ s.alc.age.idxOf v < s.alc.age.idxOf x) := by
    obtain ⟨-, z, hz, -⟩ := State.mem_stealCandidates.1 (List.mem_of_mem_filter hx)
    have notAbove := ((State.mem_lowestOf hz).1 hx).2 v candidate y hv
    rcases first x z e hz with h | ⟨-, h⟩
    · exact absurd notAbove (not_le.2 h)
    · exact h
  have sorted : (s.lowestOf (s.stealCandidates p)).Pairwise fun a b => s.alc.age.idxOf a < s.alc.age.idxOf b :=
    ((pairwise_idxOf law.1).filter _).filter _
  unfold State.stealVictim
  dsimp only
  cases hr : (s.voice v).isReleasing with
  | true =>
    have head : ((s.lowestOf (s.stealCandidates p)).filter fun v => (s.voice v).isReleasing).head? = some v := by
      refine head?_of_first (sorted.filter _) (List.mem_filter.2 ⟨low, hr⟩) fun x hx e => ?_
      obtain ⟨hx, releasing⟩ := List.mem_filter.1 hx
      rcases behind x hx e with ⟨-, h⟩ | ⟨-, h⟩
      · exact absurd (releasing.symm.trans h) (by decide)
      · exact h.asymm
    split
    · next e => rw [e] at head; exact head
    · next e => rw [e] at head; cases head
  | false =>
    have none_releasing : ((s.lowestOf (s.stealCandidates p)).filter fun v => (s.voice v).isReleasing) = [] := by
      rw [List.filter_eq_nil_iff]
      intro x hx releasing
      by_cases e : x = v
      · subst e
        exact absurd (hr.symm.trans releasing) (by decide)
      · rcases behind x hx e with ⟨h, -⟩ | ⟨h, -⟩
        · exact absurd (hr.symm.trans h) (by decide)
        · exact absurd (hr.symm.trans (h.trans releasing)) (by decide)
    rw [none_releasing]
    refine head?_of_first sorted low fun x hx e => ?_
    rcases behind x hx e with ⟨h, -⟩ | ⟨-, h⟩
    · exact absurd (hr.symm.trans h) (by decide)
    · exact h.asymm

end

/-! ### A steal (R46) -/

section

variable {s : State} {v : Fin 16} {y : Sounding} {o : StartOrder}

/-- A sounding victim is cut, and the order is its successor (R46, R49). -/
theorem State.steal_cuts (hb : (s.voice v).body = .playing y ∨ (s.voice v).body = .releasing y) (w : Owner) (r : ClipRecord) :
    s.steal v o w r = (.awaiting ⟨v, (s.voice v).generation + 1⟩, { (s.counted 8).takeClaim o.clip with
      voices := s.voices.set v ⟨(s.voice v).generation + 1, .cutting y ⟨32, .stolen, (s.voice v).generation⟩
        (some ⟨o, (s.voice v).generation + 1, w⟩)⟩
      alc := { s.alc with age := s.alc.age.erase v ++ [v] }
      signals := s.signals ++ [⟨v, (s.voice v).generation⟩] }) := by
  have cut := State.stopStart_cuts (s := s.counted 8) hb .stolen
  have body : (((s.counted 8).stopStart v .stolen).voice v)
      = ⟨(s.voice v).generation, .cutting y ⟨32, .stolen, (s.voice v).generation⟩ none⟩ := by
    rw [cut]
    exact Table.get_set_self ..
  unfold State.steal
  dsimp only
  rw [show s.raise .steals = s.counted 8 from rfl, if_neg (by rw [body]; exact Bool.false_ne_true),
    State.attachSuccessor_eq (by rw [body]), body, if_pos rfl, cut, State.takeClaim_eq, State.takeClaim_eq]
  dsimp only
  rw [Table.set_set_self]
  rfl

/-- A HELD victim ends at once, and the order begins on its voice (R46, R48). -/
theorem State.steal_ends {h : HeldFrom} (hb : (s.voice v).body = .held y h) (w : Owner) (r : ClipRecord) :
    s.steal v o w r = (.sounding ⟨v, (s.voice v).generation + 1⟩,
      { ((s.counted 8).releaseClaim y.clip).takeClaim o.clip with
        voices := s.voices.set v ⟨(s.voice v).generation + 1, .playing (o.begin w r)⟩
        alc := { s.alc with age := s.alc.age.erase v ++ [v], offerDue := true }
        signals := s.signals ++ [⟨v, (s.voice v).generation⟩]
        evq := (s.counted 8).noted y.noteEnd v (s.voice v).generation 4 y.owner }) := by
  have ended := State.stopStart_ends (s := s.counted 8) hb .stolen
  rw [State.endFree_eq (s := s.counted 8) (by unfold Voice.stands; rw [show (s.counted 8).voice v = s.voice v from rfl, hb]; rfl)]
    at ended
  have body : (((s.counted 8).stopStart v .stolen).voice v) = ⟨(s.voice v).generation, .free⟩ := by
    rw [ended]
    exact Table.get_set_self ..
  unfold State.steal
  dsimp only
  rw [show s.raise .steals = s.counted 8 from rfl, if_pos (by rw [body]; rfl), State.bindStart_eq, body, ended,
    State.takeClaim_eq, State.takeClaim_eq]
  dsimp only
  rw [Table.set_set_self]
  rfl

end

/-- Settles O35: the steal order names the voice, and a steal is a cut with a successor or an end and a start. -/
theorem voicePlaySteals : Obligations.VoicePlaySteals := by
  unfold Obligations.VoicePlaySteals
  intro tag w o r v y s hs ho hr hf hc hg law taken hv lower first
  dsimp only
  have choice : (s.groupRule o.group).chooseVoice o .link r = s.steal v o .link r := by
    rw [State.groupRule_alone (.inl hg)]
    exact State.chooseVoice_steals (fun x => (taken x).1) (fun x => (taken x).2) (State.stealVictim_eq law hv lower first) ..
  refine ⟨fun hb => ⟨(s.counted 8).takeClaim o.clip, State.claimedMore_takeClaim .., ?_⟩,
    fun h hb => ⟨(s.counted 8).releaseClaim y.clip, ((s.counted 8).releaseClaim y.clip).takeClaim o.clip,
      State.claimedLess_releaseClaim .., State.claimedMore_takeClaim .., ?_⟩⟩
  · exact exec_voicePlay_awaiting hs ho
      (State.takeOrder_link hr hf hc (choice.trans (State.steal_cuts hb ..)) (by simp)) tag
  · exact exec_voicePlay_sounding hs ho
      (State.takeOrder_link hr hf hc (choice.trans (State.steal_ends hb ..)) (by simp)) tag

end Sys2Proof.Machine
end

section
/-! PROOFS. The group rule: what an order does to the starts of its group (R43). -/

namespace Sys2Proof.Machine

/-- No start on the voice is of the group: none that stands, and no successor. -/
def Voice.outside (x : Voice) (g : Fin 8) : Prop :=
  (∀ y, x.stands = some y → y.group ≠ g) ∧ ∀ y c p, x.body = .cutting y c (some p) → p.order.group ≠ g

section

variable {s : State} {g : Fin 8} {v x a : Fin 16} {y : Sounding} {c : Cut} {p : Successor}

/-- The rule passes a voice that has no start of the group. -/
theorem State.groupAt_outside (h : (s.voice x).outside g) : State.groupAt g s x = s := by
  obtain ⟨stands, awaits⟩ := h
  unfold Voice.stands at stands
  unfold State.groupAt
  split
  · next hb => exact if_neg (stands _ (by rw [hb]))
  · next hb => exact if_neg (stands _ (by rw [hb]))
  · next hb => exact if_neg (stands _ (by rw [hb]))
  · next hb => exact if_neg (awaits _ _ _ hb)
  · rfl
  · rfl

theorem State.foldl_groupAt_outside {l : List (Fin 16)} (h : ∀ z ∈ l, (s.voice z).outside g) :
    l.foldl (State.groupAt g) s = s := by
  induction l with
  | nil => rfl
  | cons z l ih =>
    rw [List.foldl_cons, State.groupAt_outside (h z List.mem_cons_self)]
    exact ih fun w hw => h w (List.mem_cons_of_mem z hw)

/-- With every other voice outside the group, the rule is what it does at the one voice. -/
theorem State.groupRule_eq_groupAt (hg : g ≠ 0) (others : ∀ z, z ≠ x → (s.voice z).outside g)
    (kept : ∀ z, z ≠ x → (State.groupAt g s x).voice z = s.voice z) : s.groupRule g = State.groupAt g s x := by
  obtain ⟨before, after, split⟩ := List.append_of_mem (mem_allVoices x)
  have once : (before ++ x :: after).Nodup := split ▸ (by decide : allVoices.Nodup)
  obtain ⟨absent, -⟩ := List.nodup_cons.1 (List.nodup_middle.1 once)
  have other {z : Fin 16} (hz : z ∈ before ++ after) : z ≠ x := fun e => absent (e ▸ hz)
  unfold State.groupRule
  rw [if_neg hg, split, List.foldl_append, List.foldl_cons,
    State.foldl_groupAt_outside fun z hz => others z (other (List.mem_append_left _ hz))]
  refine State.foldl_groupAt_outside fun z hz => ?_
  have apart := other (List.mem_append_right before hz)
  rw [kept z apart]
  exact others z apart

/-- Such a rule as one known state, which differs from the first in no other voice. -/
theorem State.groupRule_eq {t : State} {b : Voice} (hg : g ≠ 0) (others : ∀ z, z ≠ x → (s.voice z).outside g)
    (h : State.groupAt g s x = t) (ht : t.voices = s.voices.set x b) : s.groupRule g = t := by
  rw [State.groupRule_eq_groupAt hg others, h]
  intro z hz
  unfold State.voice
  rw [h, ht]
  exact Table.get_set_of_ne _ hz.symm _

/-- A sounding start of the group is cut as SUPERSEDED. -/
theorem State.groupAt_cuts (hb : (s.voice x).body = .playing y ∨ (s.voice x).body = .releasing y) (hy : y.group = g) :
    State.groupAt g s x = s.stopStart x .superseded := by
  unfold State.groupAt
  rcases hb with hb | hb <;> rw [hb] <;> exact if_pos hy

/-- A HELD start of the group ends at once. -/
theorem State.groupAt_ends {w : HeldFrom} (hb : (s.voice x).body = .held y w) (hy : y.group = g) :
    State.groupAt g s x = s.stopStart x .superseded := by
  unfold State.groupAt
  rw [hb]
  exact if_pos hy

/-- A successor of the group is cancelled. -/
theorem State.groupAt_cancels (hb : (s.voice x).body = .cutting y c (some p)) (hp : p.order.group = g) :
    State.groupAt g s x = s.cancelSuccessor x .superseded := by
  unfold State.groupAt
  rw [hb]
  exact if_pos hp

end

theorem Voice.eq_of_free {x : Voice} (h : x.body = .free) : x = ⟨x.generation, .free⟩ :=
  congrArg (Voice.mk x.generation) h

/-- VOICE PLAY where a FREE voice is left after the group rule (R43, R44, R48). -/
theorem exec_voicePlay_free {s t : State} {w : OrderWire} {o : StartOrder} {r : ClipRecord} {a : Fin 16} {n : Byte}
    (hs : s.takesRequests) (ho : orderOf w = .ok o) (hr : (s.clip o.clip).record = some r)
    (hf : o.reverse = false ∨ r.loopMode = .none) (hc : s.sectorsClear r) (rule : s.groupRule o.group = t)
    (ha : t.voice a = ⟨n, .free⟩) (lowest : ∀ z : Fin 16, z < a → (t.voice z).body ≠ .free) (tag : Byte) :
    exec (.voicePlay tag w) s = .next (State.replying { t.takeClaim o.clip with
      voices := t.voices.set a ⟨n + 1, .playing (o.begin .link r)⟩
      alc := { t.alc with age := t.alc.age ++ [a] } } tag 0xB0 .ok [BitVec.ofNat 8 a.val, n + 1, 0]) := by
  refine exec_voicePlay_sounding hs ho (State.takeOrder_link hr hf hc ?_ (by simp)) tag
  rw [rule, State.chooseVoice_binds (by rw [ha]) lowest, State.bindStart_eq, ha]

/-- Settles O36: the rule acts at the one voice of the group, and the order begins on the lowest voice that is FREE then. -/
theorem groupRuleSupersedes : Obligations.GroupRuleSupersedes := by
  unfold Obligations.GroupRuleSupersedes
  intro tag w o r v x s hs ho hr hf hc hg hv lowest others
  dsimp only
  have same {z : Fin 16} (hz : z ≠ x) (b : Voice) : (s.voices.set x b).get z = s.voice z := Table.get_set_of_ne _ hz.symm b
  have open_v (hx : v ≠ x) (b : Voice) : (s.voices.set x b).get v = ⟨(s.voice v).generation, .free⟩ :=
    (same hx b).trans (Voice.eq_of_free hv)
  -- Below `v` only `x` can be FREE after the rule.
  have taken {b : Voice} {a : Fin 16} (ha : a ≤ v) (hb : ∀ z, z < a → z = x → b.body ≠ .free) (z : Fin 16) (hz : z < a) :
      ((s.voices.set x b).get z).body ≠ .free := by
    by_cases e : z = x
    · rw [e, Table.get_set_self]
      exact hb z hz e
    · rw [same e]
      exact lowest z (lt_of_lt_of_le hz ha)
  refine ⟨fun y hb hy => ⟨s.takeClaim o.clip, State.claimedMore_takeClaim .., ?_⟩,
    fun y h hb hy => ⟨s.releaseClaim y.clip, (s.releaseClaim y.clip).takeClaim o.clip,
      State.claimedLess_releaseClaim .., State.claimedMore_takeClaim .., ?_⟩,
    fun y c p hb hp => ⟨s.releaseClaim p.order.clip, (s.releaseClaim p.order.clip).takeClaim o.clip,
      State.claimedLess_releaseClaim .., State.claimedMore_takeClaim .., ?_⟩⟩
  · have apart : v ≠ x := by rintro rfl; simp [hv] at hb
    have rule := State.groupRule_eq hg others ((State.groupAt_cuts hb hy).trans (State.stopStart_cuts hb _)) rfl
    rw [exec_voicePlay_free hs ho hr hf hc rule (open_v apart _) (taken le_rfl nofun), State.takeClaim_eq, State.takeClaim_eq]
    rfl
  · have stands : (s.voice x).stands.isSome = true := by unfold Voice.stands; rw [hb]; rfl
    have rule := State.groupRule_eq hg others
      (((State.groupAt_ends hb hy).trans (State.stopStart_ends hb _)).trans (State.endFree_eq stands ..)) rfl
    by_cases below : x < v
    · rw [if_pos below, exec_voicePlay_free hs ho hr hf hc rule (Table.get_set_self ..)
        (taken below.le fun z hz e => absurd e hz.ne), State.takeClaim_eq, State.takeClaim_eq]
      rfl
    · have apart : v ≠ x := by rintro rfl; simp [hv] at hb
      rw [if_neg below, exec_voicePlay_free hs ho hr hf hc rule (open_v apart _)
        (taken le_rfl fun z hz e => absurd (e ▸ hz) below), State.takeClaim_eq, State.takeClaim_eq]
      rfl
  · have apart : v ≠ x := by rintro rfl; simp [hv] at hb
    have rule := State.groupRule_eq hg others ((State.groupAt_cancels hb hp).trans (State.cancelSuccessor_eq hb _)) rfl
    rw [exec_voicePlay_free hs ho hr hf hc rule (open_v apart _) (taken le_rfl nofun), State.takeClaim_eq, State.takeClaim_eq]
    rfl

end Sys2Proof.Machine
end

section
/-! PROOFS. The retry round of the lanes that wait for a voice (R53, R54, R85). -/

namespace Sys2Proof.Machine

/-! ### The lanes' turns (R53) -/

theorem Lane.startWait_iff {x : Lane} {o : StartOrder} :
    x.startWait = some o ↔ x.state = .waiting ∧ x.wait = some (.start o) := by
  unfold Lane.startWait
  split
  · next hx hw => rw [hx, hw]; simp
  · next h =>
    refine ⟨nofun, fun ⟨hx, hw⟩ => ?_⟩
    exact absurd hw (h o hx)

theorem Lane.startWait_none {x : Lane} (h : ∀ o, ¬(x.state = .waiting ∧ x.wait = some (.start o))) : x.startWait = none :=
  Option.eq_none_iff_forall_ne_some.2 fun o e => h o (Lane.startWait_iff.1 e)

/-- A lane's turn in the round that takes the lanes from `first` on. -/
def State.retryTurn (first : Nat) (s : State) (l : Fin 4) : State :=
  if first ≤ l.val ∧ s.alc.retry.isNone then s.retryAt l else s

theorem State.retryFrom_eq (s : State) (first : Nat) : s.retryFrom first = allLanes.foldl (State.retryTurn first) s := rfl

/-- The lane's turn is not taken: the round begins after it, or a retry stands, or it is in no START wait. -/
def State.PassesTurn (s : State) (first : Nat) (l : Fin 4) : Prop :=
  l.val < first ∨ s.alc.retry.isSome = true ∨ (s.lane l).startWait = none

section

variable {s t : State} {first : Nat} {l : Fin 4}

theorem State.PassesTurn.turn (h : s.PassesTurn first l) : State.retryTurn first s l = s := by
  unfold State.retryTurn
  rcases h with before | standing | waitless
  · exact if_neg fun turn => absurd turn.1 (not_le.2 before)
  · exact if_neg fun turn => by rw [Option.isNone_iff_eq_none] at turn; simp [turn.2] at standing
  · have passed : s.retryAt l = s := by unfold State.retryAt; rw [waitless]
    rw [passed, ite_self]

theorem State.foldl_retryTurn_passes {ls : List (Fin 4)} (h : ∀ j ∈ ls, s.PassesTurn first j) :
    ls.foldl (State.retryTurn first) s = s := by
  induction ls with
  | nil => rfl
  | cons j ls ih =>
    rw [List.foldl_cons, (h j List.mem_cons_self).turn]
    exact ih fun k hk => h k (List.mem_cons_of_mem j hk)

/-- A round in which no lane's turn is taken. -/
theorem State.retryFrom_passes (h : ∀ j, s.PassesTurn first j) : s.retryFrom first = s :=
  State.foldl_retryTurn_passes fun j _ => h j

/-- A round in which one lane's turn is taken. -/
theorem State.retryFrom_once (before : ∀ j, j < l → s.PassesTurn first j) (turn : State.retryTurn first s l = t)
    (after : ∀ j, l < j → t.PassesTurn first j) : s.retryFrom first = t := by
  have split : ∀ l : Fin 4, allLanes = allLanes.take l.val ++ l :: allLanes.drop (l.val + 1) := by decide
  have below : ∀ l : Fin 4, ∀ j ∈ allLanes.take l.val, j < l := by decide
  have above : ∀ l : Fin 4, ∀ j ∈ allLanes.drop (l.val + 1), l < j := by decide
  rw [State.retryFrom_eq, split l, List.foldl_append, State.foldl_retryTurn_passes fun j hj => before j (below l j hj),
    List.foldl_cons, turn]
  exact State.foldl_retryTurn_passes fun j hj => after j (above l j hj)

/-- A lane in a START wait has its turn. -/
theorem State.retryTurn_asks {o : StartOrder} (hr : s.alc.retry = none) (hw : (s.lane l).startWait = some o) :
    State.retryTurn 0 s l = s.askRetry ⟨l, o, true⟩ := by
  unfold State.retryTurn State.retryAt
  rw [if_pos ⟨Nat.zero_le _, by rw [hr]; rfl⟩, hw]

end

/-! ### The answer to a retry (R54, R85) -/

theorem State.setRetry_none {s : State} (h : s.alc.retry = none) : s.setRetry none = s := by
  unfold State.setRetry
  rw [← h]

section

variable {s : State} {l : Fin 4} {k : Fin 256} {b : CueBlock} {q : Retry}

theorem State.currentBlock_eq (hk : (s.lane l).slot = some k) (hb : s.cues.get k = some b) : s.currentBlock l = some (k, b) := by
  unfold State.currentBlock
  rw [hk]
  dsimp only
  rw [hb]
  rfl

/-- A wait ends at a block whose link is EMPTY: the lane starves there (R78, R82). -/
theorem State.endWait_starves (hk : (s.lane l).slot = some k) (hb : s.cues.get k = some b) (note : b.note = false)
    (pause : b.pause = false) (last : b.last = false) (unpaused : (s.lane l).pauseRequested = false)
    (empty : s.cues.get b.link = none) :
    s.endWait l = s.setLane l { s.lane l with state := .starved, wait := none, slot := some b.link, budget := 0 } := by
  unfold State.endWait State.finishBlock
  rw [State.currentBlock_eq hk hb]
  simp only [note, pause, last, unpaused, State.lane_setLane, if_true, Bool.or_self, Bool.false_eq_true, if_false]
  rw [State.fetch_empty (by simpa using empty)]
  simp [Lane.starvedAt, State.setLane_setLane]

/-- A success stores the handle and completes the PLAY block (R85). -/
theorem State.retrySucceeded_starves {p : PlayOperands} (hk : (s.lane l).slot = some k) (hb : s.cues.get k = some b)
    (play : b.op = .play p) (note : b.note = false) (pause : b.pause = false) (last : b.last = false)
    (unpaused : (s.lane l).pauseRequested = false) (empty : s.cues.get b.link = none) (h : Handle) :
    s.retrySucceeded l h = { s with lanes := s.lanes.set l { s.lane l with
      state := .starved, wait := none, slot := some b.link, budget := 0
      handles := (s.lane l).handles.set p.h (some h) } } := by
  have slot : s.playSlot l = some p.h := by
    unfold State.playSlot
    rw [State.currentBlock_eq hk hb]
    cases b
    cases play
    rfl
  unfold State.retrySucceeded
  rw [slot]
  dsimp only
  have lane : (s.setLane l ((s.lane l).setHandle p.h (some h))).lane l = (s.lane l).setHandle p.h (some h) :=
    Table.get_set_self ..
  have ended := State.endWait_starves (s := s.setLane l ((s.lane l).setHandle p.h (some h))) (by rw [lane]; exact hk) hb note
    pause last (by rw [lane]; exact unpaused) empty
  rw [State.wakeLane_of_endWait ended (by simp), lane, State.setLane_setLane]
  rfl

/-- A retry that fails, with any status, counts and posts nothing (R54). -/
theorem State.answerRetry_fails {st : Status} (h : s.orderFails q.order st) : s.answerRetry q = s.setRetry none := by
  have failed : (s.setRetry none).tryOrder q.order (.lane q.lane) = (.failed st, s.setRetry none) :=
    State.tryOrder_fails (s := s.setRetry none) (by cases st <;> exact h) q.lane
  unfold State.answerRetry
  rw [failed]

/-- A retry that succeeds on a FREE voice: the lane that still waits takes the answer (R48, R85). -/
theorem State.answerRetry_binds {r : ClipRecord} {v : Fin 16} (hr : (s.clip q.order.clip).record = some r)
    (hc : s.sectorsClear r) (hg : s.groupAlone q.order) (hv : (s.voice v).body = .free)
    (lowest : ∀ w : Fin 16, w < v → (s.voice w).body ≠ .free) :
    s.answerRetry q = if s.stillWaits q
      then ((s.setRetry none).bindStart v q.order (.lane q.lane) r).2.retrySucceeded q.lane ⟨v, (s.voice v).generation + 1⟩
      else ((s.setRetry none).bindStart v q.order (.lane q.lane) r).2 := by
  have bound : (s.setRetry none).tryOrder q.order (.lane q.lane)
      = (.sounding ⟨v, (s.voice v).generation + 1⟩, ((s.setRetry none).bindStart v q.order (.lane q.lane) r).2) :=
    State.tryOrder_binds (s := s.setRetry none) hr hc hg hv lowest q.lane
  unfold State.answerRetry
  rw [bound]

theorem State.stillWaits_iff : s.stillWaits q = true ↔ q.standing = true
    ∧ ∃ o, (s.lane q.lane).state = .waiting ∧ (s.lane q.lane).wait = some (.start o) := by
  unfold State.stillWaits
  rw [Bool.and_eq_true, Option.isSome_iff_exists]
  simp only [Lane.startWait_iff]

/-- A success that reaches the lane, at a block whose link is EMPTY (R78, R85). -/
theorem State.answerRetry_starves {r : ClipRecord} {v : Fin 16} {o : StartOrder} {p : PlayOperands}
    (hr : (s.clip q.order.clip).record = some r)
    (hc : s.sectorsClear r) (hg : s.groupAlone q.order) (hv : (s.voice v).body = .free)
    (lowest : ∀ w : Fin 16, w < v → (s.voice w).body ≠ .free) (standing : q.standing = true)
    (waiting : (s.lane q.lane).state = .waiting) (wait : (s.lane q.lane).wait = some (.start o))
    (hk : (s.lane q.lane).slot = some k) (hb : s.cues.get k = some b)
    (play : b.op = .play p) (note : b.note = false) (pause : b.pause = false) (last : b.last = false)
    (unpaused : (s.lane q.lane).pauseRequested = false) (empty : s.cues.get b.link = none) :
    s.answerRetry q = { ((s.setRetry none).bindStart v q.order (.lane q.lane) r).2 with
      lanes := s.lanes.set q.lane { s.lane q.lane with
        state := .starved, wait := none, slot := some b.link, budget := 0
        handles := (s.lane q.lane).handles.set p.h (some ⟨v, (s.voice v).generation + 1⟩) } } := by
  rw [State.answerRetry_binds hr hc hg hv lowest, if_pos (State.stillWaits_iff.2 ⟨standing, o, waiting, wait⟩)]
  have apart := Apart.bindStart (s.setRetry none) v q.order (.lane q.lane) r
  have cues : ((s.setRetry none).bindStart v q.order (.lane q.lane) r).2.cues = s.cues := by
    rw [State.bindStart_eq, State.takeClaim_eq]
    rfl
  generalize ((s.setRetry none).bindStart v q.order (.lane q.lane) r).2 = t at apart cues
  have lanes : t.lanes = s.lanes := apart.lanes
  have lane : t.lane q.lane = s.lane q.lane := apart.lane q.lane
  rw [← lane] at hk unpaused
  rw [← cues] at hb empty
  rw [State.retrySucceeded_starves hk hb play note pause last unpaused empty, lane, lanes]

end

end Sys2Proof.Machine
end

section
/-! PROOFS. The statement on the retry round: a round that begins, and one that goes on (R53, R54, R85). -/

namespace Sys2Proof.Machine

/-! ### A round that begins (R53 steps 1 to 3) -/

section

variable {s : State} {l : Fin 4} {o : StartOrder}

/-- The question and its answer, with no command between them. -/
theorem State.askRetry_answers {q : Retry} (h : s.openings.headD false = false) :
    s.askRetry q = s.opening.2.answerRetry q :=
  if_neg (by rw [State.opening_fst, h]; exact Bool.false_ne_true)

/-- Another command is taken between the question and its answer. -/
theorem State.askRetry_stands {q : Retry} (h : s.openings.headD false = true) :
    s.askRetry q = s.opening.2.setRetry (some q) :=
  if_pos (by rw [State.opening_fst, h])

/-- An order is bound alike at an opening passed. -/
theorem State.bindStart_opening (s : State) (v : Fin 16) (o : StartOrder) (w : Owner) (r : ClipRecord) :
    (s.opening.2.bindStart v o w r).2 = { (s.bindStart v o w r).2 with openings := s.openings.tail } := by
  rw [State.bindStart_eq, State.bindStart_eq, State.takeClaim_eq, State.takeClaim_eq]
  rfl

theorem State.headD_of_all_false {bs : List Bool} (h : ∀ b ∈ bs, b = false) : bs.headD false = false := by
  cases bs with
  | nil => rfl
  | cons b bs => exact h b List.mem_cons_self

/-- A turn whose retry fails uses up an opening at most. -/
theorem State.retryTurn_fails (hr : s.alc.retry = none) (closed : s.openings.headD false = false)
    (fails : ∀ o, (s.lane l).startWait = some o → ∃ st, s.orderFails o st) :
    ∃ n, n ≤ 1 ∧ State.retryTurn 0 s l = { s with openings := s.openings.drop n } := by
  cases hw : (s.lane l).startWait with
  | none => exact ⟨0, Nat.zero_le _, State.PassesTurn.turn (.inr (.inr hw))⟩
  | some o =>
    obtain ⟨st, failed⟩ := fails o hw
    refine ⟨1, le_rfl, ?_⟩
    rw [State.retryTurn_asks hr hw, State.askRetry_answers closed, List.drop_one,
      State.answerRetry_fails (s := s.opening.2) (st := st) (by cases st <;> exact failed)]
    exact State.setRetry_none (s := s.opening.2) hr

/-- The turns of lanes whose retries all fail. -/
theorem State.foldl_retryTurn_fails (hr : s.alc.retry = none) (closed : ∀ b ∈ s.openings, b = false)
    (fails : ∀ l o, (s.lane l).startWait = some o → ∃ st, s.orderFails o st) (ls : List (Fin 4)) :
    ∃ n, n ≤ ls.length ∧ ls.foldl (State.retryTurn 0) s = { s with openings := s.openings.drop n } := by
  induction ls generalizing s with
  | nil => exact ⟨0, le_rfl, rfl⟩
  | cons l ls ih =>
    obtain ⟨m, hm, turn⟩ := State.retryTurn_fails hr (State.headD_of_all_false closed) (fails l)
    have still (l : Fin 4) (o : StartOrder) (hw : (s.lane l).startWait = some o) :
        ∃ st, State.orderFails { s with openings := s.openings.drop m } o st := by
      obtain ⟨st, failed⟩ := fails l o hw
      exact ⟨st, by cases st <;> exact failed⟩
    obtain ⟨n, hn, rest⟩ := ih (s := { s with openings := s.openings.drop m }) hr
      (fun b hb => closed b (List.mem_of_mem_drop hb)) still
    refine ⟨m + n, by rw [List.length_cons]; omega, ?_⟩
    rw [List.foldl_cons, turn, rest]
    dsimp only
    rw [List.drop_drop]

/-- A round where offer due is set and no retry stands (R53). -/
theorem State.retryRound_begins (hr : s.alc.retry = none) (due : s.alc.offerDue = true) :
    s.retryRound = s.clearOffer.retryFrom 0 := by
  unfold State.retryRound
  rw [hr]
  exact if_pos due

/-- A round that goes on with the retry that stands (R53). -/
theorem State.retryRound_goesOn {q : Retry} (hr : s.alc.retry = some q) :
    s.retryRound = (s.answerRetry q).retryFrom (q.lane.val + 1) := by
  unfold State.retryRound
  rw [hr]

/-- After its answer the lanes past the retry's lane have their turns, and none is in a START wait. -/
theorem State.retryRound_answers {q : Retry} {t : State} (hr : s.alc.retry = some q) (answer : s.answerRetry q = t)
    (waitless : ∀ j, q.lane < j → (t.lane j).startWait = none) : s.retryRound = t := by
  rw [State.retryRound_goesOn hr, answer]
  refine State.retryFrom_passes fun j => ?_
  by_cases past : q.lane < j
  · exact .inr (.inr (waitless j past))
  · exact .inl (Nat.lt_succ_of_le (not_lt.1 past))

end

theorem exec_retryRound (s : State) : exec .retryRound s = .next s.retryRound := rfl

/-- Settles O31: a turn is passed, or comes to a failure, a bound start or a retry that stands; the round is the one turn taken,
or the answer to the retry that stood. -/
theorem retryRoundRetriesWaitingLanes : Obligations.RetryRoundRetriesWaitingLanes := by
  unfold Obligations.RetryRoundRetriesWaitingLanes
  simp only [exec_retryRound, Host.Outcome.next.injEq]
  refine ⟨fun s hr => ⟨fun idle => ?_, fun due waitless => ?_, fun due closed fails => ?_, ?_, ?_⟩, fun q s hr waitless => ?_⟩
  · unfold State.retryRound
    rw [hr]
    exact if_neg (by rw [idle]; exact Bool.false_ne_true)
  · rw [State.retryRound_begins hr due]
    exact State.retryFrom_passes fun j => .inr (.inr (Lane.startWait_none (waitless j)))
  · rw [State.retryRound_begins hr due]
    refine State.foldl_retryTurn_fails (s := s.clearOffer) hr closed (fun l o hw => ?_) allLanes
    obtain ⟨st, failed⟩ := fails l o (Lane.startWait_iff.1 hw)
    exact ⟨st, by cases st <;> exact failed⟩
  · intro l o p k b r v due ⟨waiting, wait⟩ others hk hb play note pause last unpaused empty hrec hc hg hv lowest closed
    have passed (j : Fin 4) (hj : j ≠ l) : (s.lane j).startWait = none :=
      Lane.startWait_none fun _ w => others j hj w.1
    rw [State.retryRound_begins hr due]
    refine State.retryFrom_once (l := l) (fun j hj => .inr (.inr (passed j hj.ne))) ?_ fun j hj => .inr (.inr ?_)
    · rw [State.retryTurn_asks (s := s.clearOffer) hr (Lane.startWait_iff.2 ⟨waiting, wait⟩),
        State.askRetry_answers (s := s.clearOffer) closed,
        State.answerRetry_starves (s := s.clearOffer.opening.2) (q := ⟨l, o, true⟩) hrec hc (.inl hg) hv lowest rfl waiting wait
          hk hb play note pause last unpaused empty,
        State.setRetry_none (s := s.clearOffer.opening.2) hr, State.bindStart_opening]
      rfl
    · exact (congrArg Lane.startWait (Table.get_set_of_ne _ hj.ne _)).trans (passed j hj.ne')
  · intro l o due waits before opened
    rw [State.retryRound_begins hr due]
    refine State.retryFrom_once (l := l) (fun j hj => .inr (.inr (Lane.startWait_none fun q => before j q hj))) ?_ fun j _ =>
      .inr (.inl ?_)
    · rw [State.retryTurn_asks (s := s.clearOffer) hr (Lane.startWait_iff.2 waits),
        State.askRetry_stands (s := s.clearOffer) opened]
      rfl
    · rfl
  · refine ⟨fun ⟨st, failed⟩ => ?_, fun r v hrec hc hg hv lowest => ?_⟩
    · exact State.retryRound_answers hr (State.answerRetry_fails failed) fun j hj => Lane.startWait_none fun o => waitless j o hj
    · have passed (j : Fin 4) (hj : q.lane < j) : (s.lane j).startWait = none := Lane.startWait_none fun o => waitless j o hj
      refine ⟨fun lost => ?_, fun o p k b standing waiting wait hk hb play note pause last unpaused empty => ?_⟩
      · have silent : ¬s.stillWaits q = true := by
          rw [State.stillWaits_iff]
          rintro ⟨standing, o, waits⟩
          rcases lost with h | h
          · exact absurd (h.symm.trans standing) (by decide)
          · exact h o waits
        refine State.retryRound_answers hr ((State.answerRetry_binds hrec hc hg hv lowest).trans (if_neg silent)) fun j hj => ?_
        have apart := Apart.bindStart (s.setRetry none) v q.order (.lane q.lane) r
        exact (congrArg Lane.startWait (apart.lane j)).trans (passed j hj)
      · refine State.retryRound_answers hr (State.answerRetry_starves hrec hc hg hv lowest standing waiting wait hk hb play note
          pause last unpaused empty) fun j hj => ?_
        exact (congrArg Lane.startWait (Table.get_set_of_ne _ hj.ne _)).trans (passed j hj)

end Sys2Proof.Machine
end

section
/-! PROOFS. A cue block and its sixteen bytes: what the bytes of a block in range are read as (R57, R60, R176). -/

namespace Sys2Proof.Machine

/-! ### Numbers and their bytes (R172) -/

theorem toNat_byte1 (n : Nat) : (byte1 n).toNat = n % 256 := BitVec.toNat_ofNat ..

theorem toNat_byte1_of_lt {n : Nat} (h : n < 256) : (byte1 n).toNat = n := (toNat_byte1 n).trans (Nat.mod_eq_of_lt h)

theorem byte1_toNat (b : Byte) : byte1 b.toNat = b := BitVec.ofNat_toNat ..

/-- A bit of a number's lowest byte. -/
theorem getLsbD_byte1 (n : Nat) {i : Nat} (h : i < 8) : (byte1 n).getLsbD i = decide (n / 2 ^ i % 2 = 1) := by
  unfold byte1
  rw [BitVec.getLsbD_ofNat, Nat.testBit_eq_decide_div_mod_eq, decide_eq_true h, Bool.true_and]

/-- A byte of a field, by the field's number. -/
theorem byte1_div {w : Nat} (v : BitVec w) (k : Nat) : byte1 (v.toNat / 2 ^ k) = v.extractLsb' k 8 := by
  apply BitVec.eq_of_toNat_eq
  rw [toNat_byte1, BitVec.extractLsb'_toNat, Nat.shiftRight_eq_div_pow]

theorem toNat_append_byte {w : Nat} (v : BitVec w) (b : Byte) : (v ++ b).toNat = v.toNat * 256 + b.toNat := by
  rw [BitVec.toNat_append, ← Nat.shiftLeft_add_eq_or_of_lt b.isLt, Nat.shiftLeft_eq]

theorem beNat_pair (a b : Byte) : beNat [a, b] = a.toNat * 256 + b.toNat := by simp [beNat]

theorem beNat_be16 {n : Nat} (h : n < 65536) : beNat (be16 n) = n := by
  unfold be16
  rw [beNat_pair, toNat_byte1, toNat_byte1]
  omega

/-- A two-byte field from the bytes of its number. -/
theorem half_be16 (n : Nat) : (byte1 (n / 256) ++ byte1 n : Half) = BitVec.ofNat 16 n := by
  apply BitVec.eq_of_toNat_eq
  rw [toNat_append_byte, toNat_byte1, toNat_byte1, BitVec.toNat_ofNat]
  omega

/-- A code from the bytes of its number. -/
theorem eventValue_be32 (c : Code) : eventValue (byte1 (c.toNat / 16777216)) (byte1 (c.toNat / 65536))
    (byte1 (c.toNat / 256)) (byte1 c.toNat) = c := by
  have bound := c.isLt
  apply BitVec.eq_of_toNat_eq
  unfold eventValue
  simp only [toNat_append_byte, toNat_byte1]
  omega

/-! ### The operands of a block (R58, R176) -/

theorem NoVoicePolicy.ofCode_code (p : NoVoicePolicy) : NoVoicePolicy.ofCode p.code = some p := by cases p <;> rfl

theorem NoVoicePolicy.code_le (p : NoVoicePolicy) : p.code ≤ 2 := by cases p <;> decide

theorem Scale.toNat_code_lt (k : Scale) : k.code.toNat < 4 := by cases k <;> decide

theorem finOf_byte1 {n : Nat} (hn : n ≤ 256) (i : Fin n) : finOf n (byte1 i.val).toNat = some i := by
  rw [toNat_byte1_of_lt (i.isLt.trans_le hn)]
  exact finOf_of_lt i.isLt

/-- The scale bits of a release in the packed byte of a PLAY block; 0 with no release (log 13). -/
def scaleBits : Option Release → Nat
  | none => 0
  | some k => k.scale.code.toNat

theorem scaleBits_lt (r : Option Release) : scaleBits r < 4 := by
  cases r with
  | none => decide
  | some k => exact k.scale.toNat_code_lt

theorem packedByte_eq (p : PlayOperands) :
    packedByte p = byte1 (scaleBits p.order.release + (if p.order.reverse then 4 else 0)
      + (if p.order.noteEnd then 8 else 0) + 16 * p.policy.code) := by
  unfold packedByte
  cases p.order.release <;> rfl

/-- The packed byte of a PLAY block gives each of its four fields back (R176). -/
theorem packedByte_fields (p : PlayOperands) :
    (packedByte p).toNat % 4 = scaleBits p.order.release ∧ (packedByte p).toNat / 16 % 4 = p.policy.code
    ∧ (packedByte p).getLsbD 2 = p.order.reverse ∧ (packedByte p).getLsbD 3 = p.order.noteEnd := by
  have scale := scaleBits_lt p.order.release
  have policy := p.policy.code_le
  rw [packedByte_eq, toNat_byte1, getLsbD_byte1 _ (by decide), getLsbD_byte1 _ (by decide)]
  cases p.order.reverse <;> cases p.order.noteEnd <;>
    simp only [if_true, Bool.false_eq_true, if_false, decide_eq_true_eq, decide_eq_false_iff_not] <;> omega

/-- The release of an order comes back from its rate and scale (R176, log 13). -/
theorem releaseOf_bytes {o : StartOrder} (h : o.inRange = true) (i : Nat) :
    releaseOf ((releaseBytes o.release).getD 0 0) (byte1 (scaleBits o.release)) i = .ok o.release := by
  unfold StartOrder.inRange at h
  cases release : o.release with
  | none => rfl
  | some k =>
    rw [release] at h
    simp only [Bool.and_eq_true, decide_eq_true_eq] at h
    obtain ⟨-, rate, rate'⟩ := h
    have rateByte : (byte1 k.rate).toNat = k.rate := toNat_byte1_of_lt (by omega)
    have scaleByte : byte1 (scaleBits (some k)) = k.scale.code := byte1_toNat _
    have good := releaseOf_good (mt byte_toNat_eq_zero.2 (by omega : (byte1 k.rate).toNat ≠ 0)) k.scale i
    rw [scaleByte]
    rw [rateByte] at good
    exact good

/-- The bytes from offset 4 on of a PLAY block in range spell it (R176). -/
theorem playOf_bytes {p : PlayOperands} (h : (CueOp.play p).inRange = true) {at' : Nat → Byte}
    (ha : ∀ i, i < 12 → at' (4 + i) = (cueOpBytes (.play p)).2.getD i 0) : playOf at' = .ok (.play p) := by
  obtain ⟨order, ramp⟩ := Bool.and_eq_true_iff.1 h
  have bounds := order
  unfold StartOrder.inRange at bounds
  simp only [Bool.and_eq_true, decide_eq_true_eq] at bounds
  obtain ⟨⟨⟨step, level⟩, loops⟩, -⟩ := bounds
  have a4 : at' 4 = byte1 p.order.clip.val := ha 0 (by decide)
  have a5 : at' 5 = byte1 p.h.val := ha 1 (by decide)
  have a6 : at' 6 = byte1 p.order.priority.val := ha 2 (by decide)
  have a7 : at' 7 = byte1 p.order.group.val := ha 3 (by decide)
  have stepBytes : [at' 8, at' 9] = be16 p.order.step := by rw [ha 4 (by decide), ha 5 (by decide)]; rfl
  have levelBytes : [at' 10, at' 11] = be16 p.order.level := by rw [ha 6 (by decide), ha 7 (by decide)]; rfl
  have a12 : at' 12 = byte1 p.order.pan.val := ha 8 (by decide)
  have a13 : at' 13 = byte1 p.order.loopCount := ha 9 (by decide)
  have a14 : at' 14 = (releaseBytes p.order.release).getD 0 0 := ha 10 (by decide)
  have a15 : at' 15 = packedByte p := ha 11 (by decide)
  obtain ⟨scale, policy, reverse, noteEnd⟩ := packedByte_fields p
  unfold playOf
  rw [a4, a5, a6, a7, stepBytes, levelBytes, a12, a13, a14, a15, beNat_be16 (by omega), beNat_be16 (by omega),
    finOf_byte1 (by decide), finOf_byte1 (by decide), finOf_byte1 (by decide), finOf_byte1 (by decide), finOf_byte1 (by decide)]
  dsimp only
  rw [if_neg (by simp only [Config.maxLevel]; omega), scale, releaseOf_bytes order, policy, NoVoicePolicy.ofCode_code, reverse,
    noteEnd, toNat_byte1_of_lt (by omega), ← Option.isNone_iff_eq_none.1 ramp]

/-- The bytes from offset 4 on of a RAMP block in range spell its ramp (R176). -/
theorem rampOf_bytes {r : RampSpec} (h : r.inRange = true) :
    rampOf (byte1 (r.target / 256) ++ byte1 r.target) (byte1 r.rate) r.scale.code r.mode.code (yesNo (boolByte r.notify)) 5
      = .ok r := by
  unfold RampSpec.inRange at h
  simp only [Bool.and_eq_true, decide_eq_true_eq] at h
  obtain ⟨⟨target, rate⟩, rate'⟩ := h
  have targetField : (BitVec.ofNat 16 r.target).toNat = r.target := by rw [BitVec.toNat_ofNat]; omega
  have rateByte : (byte1 r.rate).toNat = r.rate := toNat_byte1_of_lt (by omega)
  have notify : yesNo (boolByte r.notify) = r.notify := by cases r.notify <;> rfl
  rw [half_be16, rampOf_good (by omega) (mt byte_toNat_eq_zero.2 (by omega)) rfl rfl, targetField, rateByte, notify]

section

variable {at' : Nat → Byte}

theorem cueOpOf_play (h : (at' 0).toNat = 1) : cueOpOf at' = playOf at' := by
  unfold cueOpOf
  rw [h]
  rfl

theorem cueOpOf_ramp (h : (at' 0).toNat = 2) {i : Fin 4} (hi : finOf 4 (at' 4).toNat = some i) :
    cueOpOf at' = (rampOf (at' 5 ++ at' 6) (at' 7) (at' 8) (at' 9) (yesNo (at' 10)) 5).map (CueOp.ramp i) := by
  unfold cueOpOf
  rw [h]
  dsimp only
  rw [hi]
  rfl

theorem cueOpOf_release (h : (at' 0).toNat = 3) {i : Fin 4} (hi : finOf 4 (at' 4).toNat = some i) :
    cueOpOf at' = .ok (.release i) := by
  unfold cueOpOf
  rw [h]
  dsimp only
  rw [hi]
  rfl

theorem cueOpOf_stop (h : (at' 0).toNat = 4) {i : Fin 4} (hi : finOf 4 (at' 4).toNat = some i) :
    cueOpOf at' = .ok (.stop i) := by
  unfold cueOpOf
  rw [h]
  dsimp only
  rw [hi]
  rfl

theorem cueOpOf_waitVoice (h : (at' 0).toNat = 6) {i : Fin 4} (hi : finOf 4 (at' 4).toNat = some i) :
    cueOpOf at' = .ok (.waitVoice i) := by
  unfold cueOpOf
  rw [h]
  dsimp only
  rw [hi]
  rfl

/-- A handle slot out of range (R60). -/
theorem cueOpOf_badSlot (h : (at' 0).toNat = 2 ∨ (at' 0).toNat = 3 ∨ (at' 0).toNat = 4 ∨ (at' 0).toNat = 6)
    (hi : finOf 4 (at' 4).toNat = none) : cueOpOf at' = .error 4 := by
  unfold cueOpOf
  rcases h with h | h | h | h <;>
  · rw [h]
    dsimp only
    rw [hi]
    rfl

theorem cueOpOf_waitTime (h : (at' 0).toNat = 5) :
    cueOpOf at' = if beNat [at' 4, at' 5] = 0 then .error 4 else .ok (.waitTime (beNat [at' 4, at' 5])) := by
  unfold cueOpOf
  rw [h]
  rfl

theorem cueOpOf_waitCode (h : (at' 0).toNat = 7) :
    cueOpOf at' = .ok (.waitCode (eventValue (at' 4) (at' 5) (at' 6) (at' 7))) := by
  unfold cueOpOf
  rw [h]
  rfl

theorem cueOpOf_repeat (h : (at' 0).toNat = 8) :
    cueOpOf at' = if (at' 5).toNat = 0 then .error 5 else .ok (.repeatTo (at' 4).toFin (at' 5).toNat) := by
  unfold cueOpOf
  rw [h]
  rfl

theorem cueOpOf_mark (h : (at' 0).toNat = 9) : cueOpOf at' = .ok (.mark (at' 4 ++ at' 5)) := by
  unfold cueOpOf
  rw [h]
  rfl

end

/-- The op of a block in range comes back from its bytes (R58, R176). -/
theorem cueOpOf_bytes {op : CueOp} (h : op.inRange = true) {at' : Nat → Byte} (h0 : at' 0 = (cueOpBytes op).1)
    (ha : ∀ i, i < 12 → at' (4 + i) = (cueOpBytes op).2.getD i 0) : cueOpOf at' = .ok op := by
  have code : (at' 0).toNat = (cueOpBytes op).1.toNat := by rw [h0]
  have a4 := ha 0 (by decide)
  have a5 := ha 1 (by decide)
  have a6 := ha 2 (by decide)
  have a7 := ha 3 (by decide)
  have slot {i : Fin 4} (e : at' 4 = byte1 i.val) : finOf 4 (at' 4).toNat = some i := by
    rw [e]
    exact finOf_byte1 (by decide) i
  cases op with
  | play p => exact (cueOpOf_play code).trans (playOf_bytes h ha)
  | ramp i r =>
    have a8 := ha 4 (by decide)
    have a9 := ha 5 (by decide)
    have a10 := ha 6 (by decide)
    rw [cueOpOf_ramp code (slot a4), a5, a6, a7, a8, a9, a10]
    exact congrArg (Except.map (CueOp.ramp i)) (rampOf_bytes h)
  | release i => exact cueOpOf_release code (slot a4)
  | stop i => exact cueOpOf_stop code (slot a4)
  | waitVoice i => exact cueOpOf_waitVoice code (slot a4)
  | waitTime t =>
    have bounds : 1 ≤ t ∧ t ≤ 65535 := by simpa [CueOp.inRange] using h
    have ms : beNat [at' 4, at' 5] = t := by
      rw [a4, a5]
      exact beNat_be16 (by omega)
    rw [cueOpOf_waitTime code, ms, if_neg (by omega)]
  | waitCode c =>
    rw [cueOpOf_waitCode code, a4, a5, a6, a7]
    exact congrArg (fun c => Except.ok (CueOp.waitCode c)) (eventValue_be32 c)
  | repeatTo target n =>
    have bounds : 1 ≤ n ∧ n ≤ 255 := by simpa [CueOp.inRange] using h
    have count : (at' 5).toNat = n := by
      rw [a5]
      exact toNat_byte1_of_lt (by omega)
    have targetByte : (at' 4).toFin = target := by
      rw [a4]
      exact Fin.ext (toNat_byte1_of_lt target.isLt)
    rw [cueOpOf_repeat code, count, targetByte, if_neg (by omega)]
  | mark v =>
    have value : at' 4 ++ at' 5 = v := by
      rw [a4, a5]
      exact (half_be16 v.toNat).trans (BitVec.ofNat_toNat ..)
    rw [cueOpOf_mark code, value]

/-! ### The block (R57, R60, R176) -/

/-- The flags byte of a block (R176). -/
def flagsByte (b : CueBlock) : Byte :=
  byte1 ((if b.last then 1 else 0) + (if b.pause then 2 else 0) + (if b.note then 4 else 0))

theorem flagsByte_bits (b : CueBlock) :
    (flagsByte b).getLsbD 0 = b.last ∧ (flagsByte b).getLsbD 1 = b.pause ∧ (flagsByte b).getLsbD 2 = b.note := by
  unfold flagsByte
  cases b.last <;> cases b.pause <;> cases b.note <;> decide

theorem cueBytes_some (b : CueBlock) : cueBytes (some b)
    = [(cueOpBytes b.op).1, flagsByte b, byte1 b.link.val, byte1 b.quiet]
      ++ ((cueOpBytes b.op).2 ++ List.replicate (12 - (cueOpBytes b.op).2.length) 0) :=
  List.append_assoc ..

theorem length_operands_le (op : CueOp) : (cueOpBytes op).2.length ≤ 12 := by
  cases op <;> exact Nat.le_of_ble_eq_true rfl

theorem length_cueBytes (b : CueBlock) : (cueBytes (some b)).length = 16 := by
  have operands := length_operands_le b.op
  rw [cueBytes_some]
  simp only [List.length_append, List.length_cons, List.length_nil, List.length_replicate]
  omega

/-- A list filled up with the value that stands for an absent entry. -/
theorem getD_append_replicate {α : Type} (l : List α) (n i : Nat) (d : α) : (l ++ List.replicate n d).getD i d = l.getD i d := by
  by_cases h : i < l.length
  · exact List.getD_append _ _ _ _ h
  · rw [List.getD_append_right _ _ _ _ (not_lt.1 h), List.getD_eq_default _ _ (not_lt.1 h)]
    by_cases hn : i - l.length < n
    · exact List.getD_replicate _ hn
    · exact List.getD_eq_default _ _ (by rw [List.length_replicate]; exact not_lt.1 hn)

/-- The operand bytes of a block, an unused one 0. -/
theorem getD_cueBytes (b : CueBlock) (i : Nat) : (cueBytes (some b)).getD (4 + i) 0 = (cueOpBytes b.op).2.getD i 0 := by
  rw [cueBytes_some, List.getD_append_right _ _ _ _ (by simp), getD_append_replicate]
  exact congrArg (fun j => (cueOpBytes b.op).2.getD j 0) (Nat.add_sub_cancel_left 4 i)

/-- A block whose op, flags and quiet time pass (R60). -/
theorem cueBlockOf_good {block : List Byte} {op : CueOp} (code : 1 ≤ (block.getD 0 0).toNat ∧ (block.getD 0 0).toNat ≤ 9)
    (flags : ((block.getD 1 0).getLsbD 0 && (block.getD 1 0).getLsbD 1 || decide ((block.getD 0 0).toNat = 8)
      && ((block.getD 1 0).getLsbD 0 || (block.getD 1 0).getLsbD 1)) = false)
    (quiet : (block.getD 3 0).toNat ≤ 31) (h : cueOpOf (fun i => block.getD i 0) = .ok op) :
    cueBlockOf block = .ok
      { op, last := (block.getD 1 0).getLsbD 0, pause := (block.getD 1 0).getLsbD 1, note := (block.getD 1 0).getLsbD 2
        link := (block.getD 2 0).toFin, quiet := (block.getD 3 0).toNat } := by
  unfold cueBlockOf
  dsimp only
  rw [if_neg (by omega), if_neg (by rw [flags]; decide), if_neg (by omega), h]

theorem CueOp.code_bounds (op : CueOp) : 1 ≤ (cueOpBytes op).1.toNat ∧ (cueOpBytes op).1.toNat ≤ 9
    ∧ decide ((cueOpBytes op).1.toNat = 8) = op.isRepeat := by
  cases op <;> exact ⟨Nat.le_of_ble_eq_true rfl, Nat.le_of_ble_eq_true rfl, rfl⟩

/-- Settles O15: each op comes back from its operand bytes, and the head of the block from its four. -/
theorem cueBlockBytesReadBack : Obligations.CueBlockBytesReadBack := by
  unfold Obligations.CueBlockBytesReadBack
  intro b h
  refine ⟨?_, length_cueBytes b⟩
  unfold CueBlock.inRange at h
  simp only [Bool.and_eq_true, decide_eq_true_eq, Bool.not_eq_true'] at h
  obtain ⟨⟨⟨op, quiet⟩, lastOrPause⟩, noRepeat⟩ := h
  obtain ⟨least, greatest, isRepeat⟩ := b.op.code_bounds
  obtain ⟨last, pause, note⟩ := flagsByte_bits b
  have quietByte : (byte1 b.quiet).toNat = b.quiet := toNat_byte1_of_lt (by omega)
  have linkByte : (byte1 b.link.val).toFin = b.link := Fin.ext (toNat_byte1_of_lt b.link.isLt)
  have read := cueBlockOf_good (block := cueBytes (some b)) ⟨least, greatest⟩ (by
    show ((flagsByte b).getLsbD 0 && (flagsByte b).getLsbD 1 || decide ((cueOpBytes b.op).1.toNat = 8)
      && ((flagsByte b).getLsbD 0 || (flagsByte b).getLsbD 1)) = false
    rw [last, pause, isRepeat, lastOrPause, noRepeat]
    rfl) (quietByte.trans_le quiet)
    (cueOpOf_bytes op rfl fun i _ => getD_cueBytes b i)
  rw [read]
  show Except.ok (CueBlock.mk b.op ((flagsByte b).getLsbD 0) ((flagsByte b).getLsbD 1) ((flagsByte b).getLsbD 2)
    (byte1 b.link.val).toFin (byte1 b.quiet).toNat) = .ok b
  rw [last, pause, note, linkByte, quietByte]
end Sys2Proof.Machine
end

section
/-! PROOFS. The cue memory: the field checks of a block in their order, the slots that lanes depend on, and CUE WRITE, CUE CLEAR and
CUE READ (R60, R69 to R72). -/

namespace Sys2Proof.Machine

/-! ### The first field that fails (R60) -/

/-- A reading of some bytes fails at the first bad field, or comes to a value where no field is bad. -/
def Checked {α : Type} (r : Except Nat α) : Option Nat → Prop
  | none => ∃ a, r = .ok a
  | some i => r = .error i

theorem Checked.map {α β : Type} {r : Except Nat α} {bad : Option Nat} (f : α → β) (h : Checked r bad) :
    Checked (r.map f) bad := by
  cases bad with
  | none =>
    obtain ⟨a, rfl⟩ := h
    exact ⟨f a, rfl⟩
  | some i =>
    cases h
    rfl

/-- One check of a series, in the reader's words and in the statement's. -/
theorem Checked.ite {α : Type} {r : Except Nat α} {bad : Option Nat} {c d : Prop} [Decidable c] [Decidable d] (h : c ↔ d) (i : Nat)
    (rest : ¬d → Checked r bad) : Checked (if c then .error i else r) (if d then some i else bad) := by
  by_cases hd : d
  · rw [if_pos hd, if_pos (h.2 hd)]
    rfl
  · rw [if_neg hd, if_neg (mt h.1 hd)]
    exact rest hd

/-- A number as an index up to a greatest one. -/
theorem finOf_succ_cases (n k : Nat) :
    (n < k ∧ finOf (n + 1) k = none) ∨ (¬n < k ∧ ∃ j, finOf (n + 1) k = some j) := by
  by_cases h : n < k
  · exact .inl ⟨h, finOf_of_le h⟩
  · exact .inr ⟨h, _, finOf_of_lt (by omega)⟩

theorem Scale.ofCode_cases (b : Byte) : (3 < b.toNat ∧ Scale.ofCode b = none) ∨ (¬3 < b.toNat ∧ ∃ k, Scale.ofCode b = some k) := by
  by_cases h : 3 < b.toNat
  · exact .inl ⟨h, Scale.ofCode_of_gt h⟩
  · obtain ⟨k, rfl⟩ := Scale.exists_code (not_lt.1 h)
    exact .inr ⟨h, k, k.ofCode_code⟩

theorem RampMode.ofCode_cases (b : Byte) :
    (2 < b.toNat ∧ RampMode.ofCode b = none) ∨ (¬2 < b.toNat ∧ ∃ m, RampMode.ofCode b = some m) := by
  by_cases h : 2 < b.toNat
  · exact .inl ⟨h, RampMode.ofCode_of_gt h⟩
  · obtain ⟨m, rfl⟩ := RampMode.exists_code (not_lt.1 h)
    exact .inr ⟨h, m, m.ofCode_code⟩

/-- Two bits spell a policy, but for 3 (R62, R176). -/
theorem NoVoicePolicy.ofCode_cases {n : Nat} (h : n < 4) :
    (n = 3 ∧ NoVoicePolicy.ofCode n = none) ∨ (¬n = 3 ∧ ∃ p, NoVoicePolicy.ofCode n = some p) := by
  have all : n = 0 ∨ n = 1 ∨ n = 2 ∨ n = 3 := by omega
  rcases all with rfl | rfl | rfl | rfl
  · exact .inr ⟨by decide, .skip, rfl⟩
  · exact .inr ⟨by decide, .retry, rfl⟩
  · exact .inr ⟨by decide, .fault, rfl⟩
  · exact .inl ⟨rfl, rfl⟩

/-- The first operand of a PLAY block that is out of its range; `p i` is the number at block offset i (R58, R60). -/
def badPlayField (p : Nat → Nat) : Option Nat :=
  if 63 < p 4 then some 4 else if 3 < p 5 then some 5 else if 7 < p 6 then some 6 else if 7 < p 7 then some 7
  else if 4095 < p 10 * 256 + p 11 then some 10 else if 15 < p 12 then some 12
  else if p 15 / 16 % 4 = 3 then some 15 else none

/-- Two scale bits always spell a release (R58, log 13). -/
theorem releaseOf_twoBits (rate : Byte) (n i : Nat) : ∃ r, releaseOf rate (byte1 (n % 4)) i = .ok r := by
  have bits : (byte1 (n % 4)).toNat ≤ 3 := by
    rw [toNat_byte1]
    omega
  obtain ⟨k, hk⟩ := Scale.exists_code bits
  by_cases h : rate = 0
  · exact ⟨none, releaseOf_zero h ..⟩
  · rw [← hk]
    exact ⟨_, releaseOf_good h k i⟩

theorem playOf_checked (at' : Nat → Byte) : Checked (playOf at') (badPlayField fun i => (at' i).toNat) := by
  unfold playOf badPlayField
  dsimp only
  rcases finOf_succ_cases 63 (at' 4).toNat with ⟨out, e⟩ | ⟨out, clip, e⟩ <;> rw [e]
  · rw [if_pos out]; rfl
  rw [if_neg out]
  rcases finOf_succ_cases 3 (at' 5).toNat with ⟨out, e⟩ | ⟨out, h, e⟩ <;> rw [e]
  · rw [if_pos out]; rfl
  rw [if_neg out]
  rcases finOf_succ_cases 7 (at' 6).toNat with ⟨out, e⟩ | ⟨out, priority, e⟩ <;> rw [e]
  · rw [if_pos out]; rfl
  rw [if_neg out]
  rcases finOf_succ_cases 7 (at' 7).toNat with ⟨out, e⟩ | ⟨out, group, e⟩ <;> rw [e]
  · rw [if_pos out]; rfl
  rw [if_neg out]
  refine Checked.ite (by rw [beNat_pair]; exact Iff.rfl) 10 fun _ => ?_
  rcases finOf_succ_cases 15 (at' 12).toNat with ⟨out, e⟩ | ⟨out, pan, e⟩ <;> rw [e]
  · rw [if_pos out]; rfl
  rw [if_neg out]
  obtain ⟨release, e⟩ := releaseOf_twoBits (at' 14) (at' 15).toNat 15
  rw [e]
  rcases NoVoicePolicy.ofCode_cases (Nat.mod_lt ((at' 15).toNat / 16) (by decide : 4 > 0)) with ⟨out, e⟩ | ⟨out, policy, e⟩ <;> rw [e]
  · rw [if_pos out]; rfl
  rw [if_neg out]
  exact ⟨_, rfl⟩

/-- The first ramp field of a RAMP block that is out of its range (R58, R60). -/
def badRampField (p : Nat → Nat) : Option Nat :=
  if 4095 < p 5 * 256 + p 6 then some 5 else if p 7 = 0 then some 7
  else if 3 < p 8 then some 8 else if 2 < p 9 then some 9 else none

theorem rampOf_checked (at' : Nat → Byte) (notify : Bool) :
    Checked (rampOf (at' 5 ++ at' 6) (at' 7) (at' 8) (at' 9) notify 5) (badRampField fun i => (at' i).toNat) := by
  unfold rampOf badRampField
  refine Checked.ite (by rw [toNat_append_byte]; exact Iff.rfl) 5 fun _ => Checked.ite Iff.rfl 7 fun _ => ?_
  rcases Scale.ofCode_cases (at' 8) with ⟨out, e⟩ | ⟨out, k, e⟩ <;> rw [e]
  · rw [if_pos out]; rfl
  rw [if_neg out]
  rcases RampMode.ofCode_cases (at' 9) with ⟨out, e⟩ | ⟨out, m, e⟩ <;> rw [e]
  · rw [if_pos out]; rfl
  rw [if_neg out]
  exact ⟨_, rfl⟩

/-- The first operand of a block that is out of its range, by the op (R58, R60). -/
def badOperand (p : Nat → Nat) : Option Nat :=
  if p 0 = 1 then badPlayField p
  else if p 0 = 2 then (if 3 < p 4 then some 4 else badRampField p)
  else if p 0 = 3 ∨ p 0 = 4 ∨ p 0 = 6 then (if 3 < p 4 then some 4 else none)
  else if p 0 = 5 then (if p 4 = 0 ∧ p 5 = 0 then some 4 else none)
  else if p 0 = 8 then (if p 5 = 0 then some 5 else none)
  else none

theorem cueOpOf_checked (at' : Nat → Byte) (code : ¬((at' 0).toNat = 0 ∨ 9 < (at' 0).toNat)) :
    Checked (cueOpOf at') (badOperand fun i => (at' i).toNat) := by
  unfold badOperand
  dsimp only
  split
  · next h =>
    rw [cueOpOf_play h]
    exact playOf_checked at'
  split
  · next h =>
    rcases finOf_succ_cases 3 (at' 4).toNat with ⟨out, e⟩ | ⟨out, i, e⟩
    · rw [if_pos out, cueOpOf_badSlot (.inl h) e]
      rfl
    · rw [if_neg out, cueOpOf_ramp h e]
      exact (rampOf_checked at' _).map _
  split
  · next h =>
    rcases finOf_succ_cases 3 (at' 4).toNat with ⟨out, e⟩ | ⟨out, i, e⟩
    · rw [if_pos out, cueOpOf_badSlot (.inr h) e]
      rfl
    · rw [if_neg out]
      rcases h with h | h | h
      · exact ⟨_, cueOpOf_release h e⟩
      · exact ⟨_, cueOpOf_stop h e⟩
      · exact ⟨_, cueOpOf_waitVoice h e⟩
  split
  · next h =>
    rw [cueOpOf_waitTime h, beNat_pair]
    exact Checked.ite (by omega) 4 fun _ => ⟨_, rfl⟩
  split
  · next h =>
    rw [cueOpOf_repeat h]
    exact Checked.ite Iff.rfl 5 fun _ => ⟨_, rfl⟩
  have codeOrMark : (at' 0).toNat = 7 ∨ (at' 0).toNat = 9 := by omega
  rcases codeOrMark with h | h
  · exact ⟨_, cueOpOf_waitCode h⟩
  · exact ⟨_, cueOpOf_mark h⟩

/-- The first field of a block that fails: op, flags, quiet time, operands (R60). -/
def badBlockField (block : List Byte) : Option Nat :=
  let p (i : Nat) : Nat := (block.getD i 0).toNat
  let last := (block.getD 1 0).getLsbD 0 = true
  let pause := (block.getD 1 0).getLsbD 1 = true
  if p 0 = 0 ∨ 9 < p 0 then some 0
  else if (last ∧ pause) ∨ (p 0 = 8 ∧ (last ∨ pause)) then some 1
  else if 31 < p 3 then some 3
  else badOperand p

theorem cueBlockOf_checked (block : List Byte) : Checked (cueBlockOf block) (badBlockField block) := by
  unfold cueBlockOf badBlockField
  refine Checked.ite Iff.rfl 0 fun code => Checked.ite ?_ 1 fun _ => Checked.ite Iff.rfl 3 fun _ => ?_
  · simp only [Bool.or_eq_true, Bool.and_eq_true, decide_eq_true_eq]
  · have operands := cueOpOf_checked (fun i => block.getD i 0) code
    dsimp only
    cases bad : badOperand fun i => (block.getD i 0).toNat with
    | none =>
      rw [bad] at operands
      obtain ⟨op, e⟩ := operands
      rw [e]
      exact ⟨_, rfl⟩
    | some i =>
      rw [bad] at operands
      have e : cueOpOf (fun i => block.getD i 0) = .error i := operands
      rw [e]
      rfl

/-! ### The slots that lanes depend on (R69, R71) -/

theorem mem_allLanes (l : Fin 4) : l ∈ allLanes := by revert l; decide

theorem Lane.protectsSlot_iff {x : Lane} {k : Fin 256} : x.protectsSlot k = true ↔ x.slot = some k
    ∧ (x.state = .running ∨ x.state = .waiting ∨ x.state = .paused ∨ x.state = .faulted) := by
  unfold Lane.protectsSlot
  cases x.state <;> simp

theorem State.slotActive_iff {s : State} {k : Fin 256} : s.slotActive k = true ↔ ∃ l : Fin 4, (s.lane l).slot = some k
    ∧ ((s.lane l).state = .running ∨ (s.lane l).state = .waiting ∨ (s.lane l).state = .paused
      ∨ (s.lane l).state = .faulted) := by
  unfold State.slotActive
  rw [List.any_eq_true]
  constructor
  · rintro ⟨l, -, h⟩
    exact ⟨l, Lane.protectsSlot_iff.1 h⟩
  · rintro ⟨l, h⟩
    exact ⟨l, mem_allLanes l, Lane.protectsSlot_iff.2 h⟩

theorem inRange_iff {first last : Byte} {i : Nat} : inRange first last i = true ↔ first.toNat ≤ i ∧ i ≤ last.toNat := by
  unfold inRange
  rw [Bool.and_eq_true, decide_eq_true_eq, decide_eq_true_eq]

theorem State.rangeActive_iff {s : State} {first last : Byte} : s.rangeActive first last = true ↔
    ∃ (l : Fin 4) (k : Fin 256), (s.lane l).slot = some k ∧ first.toNat ≤ k.val ∧ k.val ≤ last.toNat
      ∧ ((s.lane l).state = .running ∨ (s.lane l).state = .waiting ∨ (s.lane l).state = .paused
        ∨ (s.lane l).state = .faulted) := by
  unfold State.rangeActive
  rw [List.any_eq_true]
  constructor
  · rintro ⟨l, -, h⟩
    cases hk : (s.lane l).slot with
    | none =>
      rw [hk] at h
      cases h
    | some k =>
      rw [hk, Bool.and_eq_true, inRange_iff, Lane.protectsSlot_iff] at h
      obtain ⟨⟨first, last⟩, -, active⟩ := h
      exact ⟨l, k, hk, first, last, active⟩
  · rintro ⟨l, k, hk, first, last, active⟩
    refine ⟨l, mem_allLanes l, ?_⟩
    rw [hk, Bool.and_eq_true, inRange_iff, Lane.protectsSlot_iff]
    exact ⟨⟨first, last⟩, hk, active⟩

/-! ### CUE CLEAR and CUE READ (R71, R72) -/

/-- Some entries of a table in order, each given as a list. -/
theorem flatMap_slice {α β : Type} {m : Nat} (t : Table α m) (f : α → List β) {a n : Nat} (h : a + n ≤ m) :
    ((t.cells.drop a).take n).flatMap f
      = (List.range n).flatMap fun k => if h : a + k < m then f (t.get ⟨a + k, h⟩) else [] := by
  induction n with
  | zero => rfl
  | succ n ih =>
    have bound : a + n < m := by omega
    have entry : (t.cells.drop a)[n]? = some (t.get ⟨a + n, bound⟩) := by
      rw [List.getElem?_drop]
      exact List.getElem?_eq_getElem _
    rw [List.take_add_one, entry, List.flatMap_append, List.range_succ, List.flatMap_append, ih (by omega)]
    simp [bound]

/-- Settles O25: the checks of CUE CLEAR and CUE READ in their order, and what a range that passes comes to. -/
theorem cueClearAndCueRead : Obligations.CueClearAndCueRead := by
  unfold Obligations.CueClearAndCueRead
  refine ⟨fun tag first last s hs => ⟨fun h => ?_, fun h busy => ?_, fun h idle active => ?_, fun h idle active => ?_⟩,
    fun tag first count s hs => ⟨fun h => ?_, fun least most inside => ?_⟩⟩
  · exact State.request_badField hs (type := 0x21) (by decide) tag (if_pos h)
  · refine State.request_answers hs (type := 0x21) (t := s) (by decide) tag ?_
    unfold doCueClear
    rw [if_neg (not_lt.2 h), if_pos (by exact busy)]
    rfl
  · refine State.request_answers hs (type := 0x21) (t := s) (by decide) tag ?_
    unfold doCueClear
    rw [if_neg (not_lt.2 h), if_neg (by exact ne_true_of_eq_false idle), if_pos (by exact State.rangeActive_iff.2 active)]
    rfl
  · refine ⟨(s.clearCues first last).cues, State.request_answers hs (type := 0x21) (t := s.clearCues first last) (by decide) tag ?_,
      fun k => ?_⟩
    · unfold doCueClear
      rw [if_neg (not_lt.2 h), if_neg (by exact ne_true_of_eq_false idle), if_neg (by exact mt State.rangeActive_iff.1 active)]
      rfl
    · show (s.cues.mapIdx _).get k = _
      rw [Table.get_mapIdx]
      simp only [inRange_iff]
  · refine State.request_badField hs (type := 0x22) (by decide) tag (if_pos ?_)
    omega
  · have read : doCueRead first count s.oweReply
        = (⟨.ok, ((s.cues.cells.drop first.toNat).take count.toNat).flatMap cueBytes⟩, s.oweReply) := if_neg (by omega)
    rw [flatMap_slice _ _ inside] at read
    exact congrArg Host.Outcome.next (State.request_unchanged hs tag 0x22 _ _ read)
end Sys2Proof.Machine
end

section
/-! PROOFS. The lanes' blocks: what a lane makes of each op, what the completion of a block comes to, and the start of a run
(R61 to R68, R76, R78 to R81). -/

namespace Sys2Proof.Machine

/-! ### One lane among the four -/

theorem State.setLane_lane {s : State} {l : Fin 4} {x : Lane} (h : s.lane l = x) : s.setLane l x = s := by
  subst h
  unfold State.setLane State.lane
  rw [Table.set_get_self]

/-- Four turns in ascending number, of which one is taken. -/
theorem foldl_allLanes_once {f : State → Fin 4 → State} {s t : State} {l : Fin 4} (before : ∀ j, j < l → f s j = s)
    (turn : f s l = t) (after : ∀ j, l < j → f t j = t) : allLanes.foldl f s = t := by
  have split : ∀ l : Fin 4, allLanes = allLanes.take l.val ++ l :: allLanes.drop (l.val + 1) := by decide
  have below : ∀ l : Fin 4, ∀ j ∈ allLanes.take l.val, j < l := by decide
  have above : ∀ l : Fin 4, ∀ j ∈ allLanes.drop (l.val + 1), l < j := by decide
  have passed {u : State} {ls : List (Fin 4)} (h : ∀ j ∈ ls, f u j = u) : ls.foldl f u = u := by
    induction ls with
    | nil => rfl
    | cons j ls ih =>
      rw [List.foldl_cons, h j List.mem_cons_self]
      exact ih fun k hk => h k (List.mem_cons_of_mem j hk)
  rw [split l, List.foldl_append, passed fun j hj => before j (below l j hj), List.foldl_cons, turn]
  exact passed fun j hj => after j (above l j hj)

/-- One lane of the four meets a test. -/
theorem filter_allLanes_one {p : Fin 4 → Bool} {l : Fin 4} (h : p l = true) (others : ∀ j, j ≠ l → p j = false) :
    allLanes.filter p = [l] := by
  have alone : ∀ l : Fin 4, allLanes.filter (fun j => decide (j = l)) = [l] := by decide
  have same : p = fun j => decide (j = l) := by
    funext j
    by_cases e : j = l
    · rw [e, h, decide_eq_true rfl]
    · rw [others j e, decide_eq_false e]
  rw [same]
  exact alone l

/-! ### Taking a block (R61 to R68) -/

section

variable {s : State} {l : Fin 4} {k : Fin 256} {b : CueBlock}

theorem State.takeOp_waitTime {t : Nat} (h : b.op = .waitTime t) :
    s.takeOp l k b = (.stands, s.setLane l ((s.lane l).waitingOn (.time t))) := by
  unfold State.takeOp
  rw [h]

theorem State.takeOp_waitCode {c : Code} (h : b.op = .waitCode c) :
    s.takeOp l k b = (.stands, s.setLane l ((s.lane l).waitingOn (.code c))) := by
  unfold State.takeOp
  rw [h]

theorem State.takeOp_waitVoice {i : Fin 4} {d : Handle} (h : b.op = .waitVoice i) (hd : (s.lane l).handles.get i = some d)
    (live : s.handleKind d ≠ .stale) : s.takeOp l k b = (.stands, s.setLane l ((s.lane l).waitingOn (.voice d))) := by
  unfold State.takeOp State.takeWaitVoice
  rw [h]
  dsimp only
  rw [hd]
  exact if_neg live

/-- WAIT_VOICE on an empty handle slot completes (R65). -/
theorem State.takeOp_waitVoice_empty {i : Fin 4} (h : b.op = .waitVoice i) (hd : (s.lane l).handles.get i = none) :
    s.takeOp l k b = (.completes none, s) := by
  unfold State.takeOp State.takeWaitVoice
  rw [h]
  dsimp only
  rw [hd]

/-- WAIT_VOICE on a stale handle completes (R65). -/
theorem State.takeOp_waitVoice_stale {i : Fin 4} {d : Handle} (h : b.op = .waitVoice i)
    (hd : (s.lane l).handles.get i = some d) (stale : s.handleKind d = .stale) : s.takeOp l k b = (.completes none, s) := by
  unfold State.takeOp State.takeWaitVoice
  rw [h]
  dsimp only
  rw [hd]
  exact if_pos stale

theorem State.takeOp_mark {v : Half} (h : b.op = .mark v) : s.takeOp l k b = (.completes none, s.postMark l v k) := by
  unfold State.takeOp
  rw [h]

theorem State.takeOp_ramp {i : Fin 4} {q : RampSpec} (h : b.op = .ramp i q) :
    s.takeOp l k b = (.completes none, s.onHandle l i fun s d => s.opRamp d q) := by
  unfold State.takeOp
  rw [h]

theorem State.takeOp_release {i : Fin 4} (h : b.op = .release i) :
    s.takeOp l k b = (.completes none, s.onHandle l i State.opRelease) := by
  unfold State.takeOp
  rw [h]

theorem State.takeOp_stop {i : Fin 4} (h : b.op = .stop i) :
    s.takeOp l k b = (.completes none, s.onHandle l i State.opStop) := by
  unfold State.takeOp
  rw [h]

theorem State.takeOp_repeat {target : Fin 256} {n : Nat} (h : b.op = .repeatTo target n) :
    s.takeOp l k b = s.takeRepeat l k target b.link n := by
  unfold State.takeOp
  rw [h]

theorem State.takeOp_play {p : PlayOperands} (h : b.op = .play p) : s.takeOp l k b = s.takePlay l k p := by
  unfold State.takeOp
  rw [h]

/-- A block that takes a RUNNING lane into a wait (R82). -/
theorem State.runLane_waits {w : Wait} (running : (s.lane l).state = .running) (hk : (s.lane l).slot = some k)
    (hb : s.cues.get k = some b) (op : s.takeOp l k b = (.stands, s.setLane l ((s.lane l).waitingOn w))) :
    s.runLane l = s.setLane l ((s.lane l).waitingOn w) := by
  refine State.runLane_of_takeNext ((State.takeNext_running running hk hb).trans (State.takeBlock_stands op)) ?_
  rw [State.lane_setLane, if_pos rfl]
  exact LaneState.noConfusion

end

/-! ### Completing a block (R80) -/

/-- The CUE_DONE of a block with NOTE (R59). -/
def State.noteBlock (s : State) (l : Fin 4) (k : Fin 256) (b : CueBlock) : State := if b.note then s.postCueDone l k else s

theorem State.noteBlock_setLane (s : State) (l : Fin 4) (k : Fin 256) (b : CueBlock) (y : Lane) :
    (s.setLane l y).noteBlock l k b = (s.noteBlock l k b).setLane l y := by
  unfold State.noteBlock
  split
  · exact State.post_setLane ..
  · rfl

@[simp] theorem State.cues_noteBlock (s : State) (l : Fin 4) (k : Fin 256) (b : CueBlock) :
    (s.noteBlock l k b).cues = s.cues := by
  unfold State.noteBlock
  split
  · exact State.cues_post ..
  · rfl

@[simp] theorem State.lanes_noteBlock (s : State) (l : Fin 4) (k : Fin 256) (b : CueBlock) :
    (s.noteBlock l k b).lanes = s.lanes := by
  unfold State.noteBlock
  split
  · exact State.lanes_post ..
  · rfl

@[simp] theorem State.openings_noteBlock (s : State) (l : Fin 4) (k : Fin 256) (b : CueBlock) :
    (s.noteBlock l k b).openings = s.openings := by
  unfold State.noteBlock
  split
  · exact State.openings_post ..
  · rfl

/-- A lane that stops running at a block, in its context y, and owes its notice (R80 steps 4 and 5, R91). -/
def State.stopLane (s : State) (l : Fin 4) (r : NoticeReason) (k : Fin 256) (quiet : Nat) (y : Lane) : State :=
  (s.setLane l y).oweNotice l r k quiet

/-- The notice is posted at once, or held for the quiet time (R91). -/
theorem State.stopLane_eq (s : State) (l : Fin 4) (r : NoticeReason) (k : Fin 256) (quiet : Nat) (y : Lane) :
    s.stopLane l r k quiet y = if quiet = 0
      then (s.post .laneIdle l.val 0 r.code (eventValue (byte1 k.val) 0 (originCode y.origin) (originBinding y.origin))).setLane l y
      else s.setLane l { y with notice := some ⟨r, quiet * 8, k⟩ } := by
  have lane : (s.setLane l y).lane l = y := Table.get_set_self ..
  unfold State.stopLane State.oweNotice State.postLaneIdle
  rw [lane, State.post_setLane, State.setLane_setLane]
  rfl

@[simp] theorem State.cues_stopLane (s : State) (l : Fin 4) (r : NoticeReason) (k : Fin 256) (quiet : Nat) (y : Lane) :
    (s.stopLane l r k quiet y).cues = s.cues := by
  rw [State.stopLane_eq]
  split <;> simp

/-- A lane that stops is in its context but for the notice. -/
theorem State.lane_stopLane (s : State) (l : Fin 4) (r : NoticeReason) (k : Fin 256) (quiet : Nat) (y : Lane) :
    ∃ notice, (s.stopLane l r k quiet y).lane l = { y with notice := notice } := by
  rw [State.stopLane_eq]
  split
  · exact ⟨y.notice, Table.get_set_self ..⟩
  · exact ⟨_, Table.get_set_self ..⟩

/-- The other lanes are as they were, and the lane that stops is overwritten by any later context. -/
theorem State.setLane_stopLane (s : State) (l : Fin 4) (r : NoticeReason) (k : Fin 256) (quiet : Nat) (y z : Lane) :
    ((s.stopLane l r k quiet y).setLane l z).lanes = s.lanes.set l z := by
  rw [State.stopLane_eq]
  split <;> simp

/-- A lane that a completion has paused (R86). -/
def Lane.pausedAt (y : Lane) (k : Fin 256) : Lane :=
  { y with state := .paused, slot := some k, wait := none, pauseRequested := false, budget := 0 }

section

variable {s u : State} {l : Fin 4} {k n : Fin 256} {b : CueBlock} {y : Lane} {next : Option (Fin 256)}

/-- The run budget lasts: the rest of the completion (R80 steps 2 to 6). -/
theorem State.takeBlock_finishes (op : s.takeOp l k b = (.completes next, u.setLane l y)) (budget : y.budget < 63) :
    s.takeBlock l k b = (u.setLane l { y with budget := y.budget + 1 }).finishBlock l k b next := by
  have lane : (u.setLane l y).lane l = y := Table.get_set_self ..
  rw [State.takeBlock_completes op]
  unfold State.completeAtOnce
  rw [lane]
  dsimp only
  rw [State.setLane_setLane]
  exact if_neg (by simp only [Config.runBudget]; omega)

/-- The 64th block of a run (R81). -/
theorem State.takeBlock_runaway (op : s.takeOp l k b = (.completes next, u.setLane l y)) (budget : y.budget = 63) :
    s.takeBlock l k b = (u.setLane l { y with budget := 64 }).faultLane l k .runaway := by
  have lane : (u.setLane l y).lane l = y := Table.get_set_self ..
  rw [State.takeBlock_completes op, State.completeAtOnce_runaway (by rw [lane]; exact budget), lane, State.setLane_setLane]

/-- A block with NOTE posts its CUE_DONE first (R80 step 2). -/
theorem State.finishBlock_some (x : Lane) :
    (u.setLane l x).finishBlock l k b (some n) = ((u.noteBlock l k b).setLane l x).fetch l n := by
  rw [← State.noteBlock_setLane]
  rfl

theorem State.finishBlock_none (x : Lane) :
    (u.setLane l x).finishBlock l k b none
      = if (x.pauseRequested || b.pause) = true then ((u.noteBlock l k b).setLane l x).pauseLane l k b.quiet
        else if b.last = true then ((u.noteBlock l k b).setLane l x).endRun l k b.quiet
        else ((u.noteBlock l k b).setLane l x).fetch l b.link := by
  have lane : ((u.noteBlock l k b).setLane l x).lane l = x := Table.get_set_self ..
  unfold State.finishBlock
  dsimp only
  rw [← State.noteBlock, State.noteBlock_setLane, lane]

/-- The lane goes to the slot that a REPEAT names, or to the link (R67, R80 steps 3 and 6). -/
theorem State.takeBlock_goesOn (op : s.takeOp l k b = (.completes next, u.setLane l y)) (budget : y.budget < 63)
    (goes : next = some n ∨ (next = none ∧ n = b.link ∧ b.pause = false ∧ b.last = false ∧ y.pauseRequested = false)) :
    s.takeBlock l k b = ((u.noteBlock l k b).setLane l { y with budget := y.budget + 1 }).fetch l n := by
  rw [State.takeBlock_finishes op budget]
  rcases goes with rfl | ⟨rfl, rfl, pause, last, unpaused⟩
  · exact State.finishBlock_some _
  · rw [State.finishBlock_none, if_neg (by simp [pause, unpaused]), if_neg (by simp [last])]

theorem State.takeBlock_starves (op : s.takeOp l k b = (.completes next, u.setLane l y)) (budget : y.budget < 63)
    (goes : next = some n ∨ (next = none ∧ n = b.link ∧ b.pause = false ∧ b.last = false ∧ y.pauseRequested = false))
    (empty : u.cues.get n = none) :
    s.takeBlock l k b = (u.noteBlock l k b).setLane l (y.starvedAt n) := by
  rw [State.takeBlock_goesOn op budget goes, State.fetch_empty (by simpa using empty), State.setLane_setLane, State.lane_setLane,
    if_pos rfl]
  rfl

/-- The lane is PAUSED at the block (R80 step 4, R86). -/
theorem State.takeBlock_pauses (op : s.takeOp l k b = (.completes none, u.setLane l y)) (budget : y.budget < 63)
    (pause : b.pause = true ∨ y.pauseRequested = true) :
    s.takeBlock l k b = (u.noteBlock l k b).stopLane l .pause k b.quiet (y.pausedAt k) := by
  rw [State.takeBlock_finishes op budget]
  rw [State.finishBlock_none, if_pos (by simpa [or_comm] using pause)]
  unfold State.pauseLane
  rw [State.setLane_setLane, State.lane_setLane, if_pos rfl]
  rfl

/-- The lane enters IDLE by its LAST block (R80 step 5). -/
theorem State.takeBlock_ends (op : s.takeOp l k b = (.completes none, u.setLane l y)) (budget : y.budget < 63)
    (last : b.last = true) (pause : b.pause = false) (unpaused : y.pauseRequested = false) (alone : y.pendingStart = none) :
    s.takeBlock l k b = (u.noteBlock l k b).stopLane l .runEnd k b.quiet y.idled := by
  rw [State.takeBlock_finishes op budget, State.finishBlock_none, if_neg (by simp [pause, unpaused]), if_pos last]
  unfold State.endRun
  dsimp only
  rw [State.setLane_setLane, State.lane_setLane, if_pos rfl, alone]
  rfl

/-- The lane enters IDLE by its LAST block, and takes the start that is pending (R80 step 5, R94). -/
theorem State.takeBlock_restarts {p : PendingStart} (op : s.takeOp l k b = (.completes none, u.setLane l y))
    (budget : y.budget < 63) (last : b.last = true) (pause : b.pause = false) (unpaused : y.pauseRequested = false)
    (pending : y.pendingStart = some p) :
    s.takeBlock l k b
      = ((u.noteBlock l k b).stopLane l .runEnd k b.quiet y.idled).beginRun l p.entry p.clear (.binding p.binding) := by
  rw [State.takeBlock_finishes op budget, State.finishBlock_none, if_neg (by simp [pause, unpaused]), if_pos last]
  unfold State.endRun
  dsimp only
  rw [State.setLane_setLane, State.lane_setLane, if_pos rfl, pending]
  rfl

end

/-! ### Starting a run (R76, R78) -/

/-- A lane after the first four steps of a start (R76). -/
def Lane.prepared (x : Lane) (clear : Bool) (o : Origin) : Lane :=
  { x with notice := none, fault := none, rep := none, wait := none, pendingStart := none
           pauseRequested := false, budget := 0, origin := some o
           handles := if clear then Table.const 4 none else x.handles }

section

variable {s : State} {k : Fin 256}

/-- A run that starts at an EMPTY slot. -/
theorem State.beginRun_empty (h : s.cues.get k = none) (l : Fin 4) (clear : Bool) (o : Origin) :
    s.beginRun l k clear o = s.setLane l (((s.lane l).prepared clear o).starvedAt k) := by
  have lane : (s.prepareStart l clear o).lane l = (s.lane l).prepared clear o := Table.get_set_self ..
  unfold State.beginRun
  rw [State.fetch_empty (s := s.prepareStart l clear o) h, lane]
  exact State.setLane_setLane ..

/-- A run that starts at a block. -/
theorem State.beginRun_block {b : CueBlock} (h : s.cues.get k = some b) (l : Fin 4) (clear : Bool) (o : Origin) :
    s.beginRun l k clear o = s.setLane l (((s.lane l).prepared clear o).runningAt k) := by
  have lane : (s.prepareStart l clear o).lane l = (s.lane l).prepared clear o := Table.get_set_self ..
  unfold State.beginRun
  rw [State.fetch_block (s := s.prepareStart l clear o) h, lane]
  exact State.setLane_setLane ..

theorem State.startLane_empty (h : s.cues.get k = none) (l : Fin 4) (clear : Bool) (o : Origin) :
    s.startLane l k clear o = s.setLane l (((s.lane l).prepared clear o).starvedAt k) := by
  unfold State.startLane
  rw [State.beginRun_empty h]
  refine State.runLane_stands ?_
  rw [State.lane_setLane, if_pos rfl]
  exact LaneState.noConfusion

/-- A lane that fetches a block which takes it into a wait (R78, R82). -/
theorem State.fetched_runLane_waits {b : CueBlock} {l : Fin 4} {w : Wait} {x : Lane} {t : State}
    (fetched : t = s.setLane l (x.runningAt k)) (hb : s.cues.get k = some b)
    (op : t.takeOp l k b = (.stands, t.setLane l ((t.lane l).waitingOn w))) :
    t.runLane l = s.setLane l ((x.runningAt k).waitingOn w) := by
  have lane : t.lane l = x.runningAt k := by
    rw [fetched]
    exact Table.get_set_self ..
  have cues : t.cues.get k = some b := by
    rw [fetched]
    exact hb
  rw [State.runLane_waits (by rw [lane]; rfl) (by rw [lane]; rfl) cues op, lane, fetched, State.setLane_setLane]

end

end Sys2Proof.Machine
end

section
/-! PROOFS. CUE WRITE: the refusals in their order, the slot written, and the lane that starves at it (R60, R69, R70). -/

namespace Sys2Proof.Machine

/-! ### The lanes that starve at a slot (R70) -/

section

variable {s : State} {k : Fin 256} {l : Fin 4}

theorem Lane.runningAt_same {x : Lane} (h : x.slot = some k) : x.runningAt k = { x with state := .running } := by
  cases x
  subst h
  rfl

/-- A lane's turn when a slot is filled (R70). -/
def State.wakeTurn (k : Fin 256) (s : State) (l : Fin 4) : State :=
  if (s.lane l).state = .starved ∧ (s.lane l).slot = some k then (s.fetch l k).runLane l else s

theorem State.wakeStarved_eq (s : State) (k : Fin 256) : s.wakeStarved k = allLanes.foldl (State.wakeTurn k) s := rfl

theorem State.wakeTurn_passes (h : ¬((s.lane l).state = .starved ∧ (s.lane l).slot = some k)) : State.wakeTurn k s l = s := if_neg h

/-- With no lane starved at the slot nothing wakes. -/
theorem State.wakeStarved_none (h : ∀ l : Fin 4, ¬((s.lane l).state = .starved ∧ (s.lane l).slot = some k)) :
    s.wakeStarved k = s := by
  rw [State.wakeStarved_eq]
  exact foldl_allLanes_once (l := 0) (fun j _ => State.wakeTurn_passes (h j)) (State.wakeTurn_passes (h 0)) fun j _ =>
    State.wakeTurn_passes (h j)

/-- One lane starves at the slot, and its block takes it into a WAIT_TIME. -/
theorem State.wakeStarved_waitTime {b : CueBlock} {t : Nat} (starved : (s.lane l).state = .starved)
    (hk : (s.lane l).slot = some k) (others : ∀ j : Fin 4, j ≠ l → (s.lane j).slot ≠ some k) (hb : s.cues.get k = some b)
    (op : b.op = .waitTime t) :
    s.wakeStarved k = s.setLane l { s.lane l with state := .waiting, wait := some (.time t), budget := 0 } := by
  rw [State.wakeStarved_eq]
  refine foldl_allLanes_once (l := l) (fun j hj => State.wakeTurn_passes fun h => others j hj.ne h.2) ?_ fun j hj =>
    State.wakeTurn_passes ?_
  · unfold State.wakeTurn
    rw [if_pos ⟨starved, hk⟩, State.fetched_runLane_waits (State.fetch_block hb l) hb (State.takeOp_waitTime op),
      Lane.runningAt_same hk]
    rfl
  · rw [State.lane_setLane, if_neg hj.ne]
    exact fun h => others j hj.ne' h.2

end

/-! ### The request (R69) -/

section

variable {s : State} {tag slot : Byte} {block : List Byte} {b : CueBlock}

theorem doCueWrite_error {i : Nat} (length : block.length = 16) (h : cueBlockOf block = .error i) (s : State) :
    doCueWrite slot block s = badField s (i + 1) := by
  unfold doCueWrite
  rw [if_neg (not_not.2 length), h]

theorem doCueWrite_ok (length : block.length = 16) (h : cueBlockOf block = .ok b) (s : State) :
    doCueWrite slot block s = s.writeCue slot.toFin b := by
  unfold doCueWrite
  rw [if_neg (not_not.2 length), h]

/-- A block written at a slot that no lane depends on (R69, R70). -/
theorem State.writeCue_stores {k : Fin 256} (idle : s.commitInFlight = false) (inactive : ¬s.slotActive k = true) :
    s.writeCue k b = (Answer.ok, (s.setCue k (some b)).wakeStarved k) := by
  unfold State.writeCue
  rw [if_neg (ne_true_of_eq_false idle), if_neg inactive]

end

theorem Lane.protectsSlot_starved {x : Lane} (h : x.state = .starved) (k : Fin 256) : ¬x.protectsSlot k = true := by
  rw [Lane.protectsSlot_iff, h]
  simp

/-- Settles O24: the checks of the block in their order, then the owner's, then the slot and the lane that starves there. -/
theorem cueWriteStoresAndWakes : Obligations.CueWriteStoresAndWakes := by
  unfold Obligations.CueWriteStoresAndWakes
  refine ⟨fun tag slot block s hs => ?_, fun tag slot block b t l s hs length ok op idle starved hk others => ?_⟩
  · have checked := cueBlockOf_checked block
    have refused (i : Nat) (length : block.length = 16) (h : cueBlockOf block = .error i) :
        exec (.cueWrite tag slot block) s = .next (s.replying tag 0xA0 .badField [BitVec.ofNat 8 (i + 1)]) :=
      State.request_badField hs (type := 0x20) (by decide) tag (doCueWrite_error length h _)
    refine ⟨fun length => ?_, fun i length bad => ?_, fun length good => ?_, refused, fun b length ok =>
      ⟨fun busy => ?_, fun idle active => ?_, fun idle inactive unstarved => ?_⟩⟩
    · exact State.request_answers hs (type := 0x20) (t := s) (by decide) tag (if_pos length)
    · rw [show badBlockField block = some i from bad] at checked
      exact refused i length checked
    · rw [show badBlockField block = none from good] at checked
      exact checked
    · exact State.request_answers hs (type := 0x20) (t := s) (by decide) tag ((doCueWrite_ok length ok _).trans (if_pos busy))
    · refine State.request_answers hs (type := 0x20) (t := s) (by decide) tag ((doCueWrite_ok length ok _).trans ?_)
      unfold State.writeCue
      rw [if_neg (by exact ne_true_of_eq_false idle), if_pos (by exact State.slotActive_iff.2 active)]
      rfl
    · refine State.request_answers hs (type := 0x20) (t := s.setCue slot.toFin (some b)) (by decide) tag
        ((doCueWrite_ok length ok _).trans ?_)
      rw [State.writeCue_stores (s := s.oweReply) idle (mt State.slotActive_iff.1 inactive),
        State.wakeStarved_none (s := s.oweReply.setCue slot.toFin (some b)) unstarved]
      rfl
  · have inactive : ¬s.oweReply.slotActive slot.toFin = true := by
      rw [State.slotActive_iff]
      rintro ⟨j, atSlot, active⟩
      by_cases e : j = l
      · subst e
        exact Lane.protectsSlot_starved starved _ (Lane.protectsSlot_iff.2 ⟨atSlot, active⟩)
      · exact others j e atSlot
    have stored : doCueWrite slot block s.oweReply = (Answer.ok, ((s.setCue slot.toFin (some b)).setLane l
        { s.lane l with state := .waiting, wait := some (.time t), budget := 0 }).oweReply) := by
      rw [doCueWrite_ok length ok, State.writeCue_stores (s := s.oweReply) idle inactive,
        State.wakeStarved_waitTime (s := s.oweReply.setCue slot.toFin (some b)) starved hk others (Table.get_set_self ..) op]
      rfl
    exact State.request_answers hs (type := 0x20) (by decide) tag stored

end Sys2Proof.Machine
end

section
/-! PROOFS. The waits that a signal or a routed code ends, and the lanes woken by one of them in turn (R80, R82 to R84, R102,
R105). -/

namespace Sys2Proof.Machine

/-! ### The lanes woken in turn (R83) -/

section

variable {s t : State} {l : Fin 4} {k : Fin 256} {b : CueBlock}

/-- A wait ends at a block whose link is EMPTY: its CUE_DONE is posted under NOTE, and the lane starves (R78, R80, R82). -/
theorem State.endWait_notes (hk : (s.lane l).slot = some k) (hb : s.cues.get k = some b) (pause : b.pause = false)
    (last : b.last = false) (unpaused : (s.lane l).pauseRequested = false) (empty : s.cues.get b.link = none) :
    s.endWait l = (s.noteBlock l k b).setLane l
      { s.lane l with state := .starved, wait := none, slot := some b.link, budget := 0 } := by
  unfold State.endWait
  rw [State.currentBlock_eq hk hb]
  dsimp only
  rw [State.finishBlock_none, if_neg (by simp [pause, unpaused]), if_neg (by simp [last]), State.fetch_empty (by simpa using empty),
    State.setLane_setLane, State.lane_setLane, if_pos rfl]
  rfl

/-- A woken lane that stands after its block: the next lane is taken. -/
theorem State.wakeInTurn_stands (h : s.endWait l = t) (stands : (t.lane l).state ≠ .running) (rest : List (Fin 4)) :
    s.wakeInTurn (l :: rest) = t.wakeInTurn rest := by
  cases rest with
  | nil => exact State.wakeLane_of_endWait h stands
  | cons j rest =>
    conv => lhs; unfold State.wakeInTurn
    rw [h, State.settle_stands stands]

/-- The lane waits at a block with NOTE, from which it goes on to an EMPTY slot. -/
def State.WaitsTowardEmpty (s : State) (l : Fin 4) : Prop :=
  ∃ k b, (s.lane l).slot = some k ∧ s.cues.get k = some b ∧ b.note = true ∧ b.pause = false ∧ b.last = false
    ∧ (s.lane l).pauseRequested = false ∧ s.cues.get b.link = none

/-- The CUE_DONE records of some lanes in turn, each with its value. -/
def State.postDones (value : Fin 4 → BitVec 32) (ls : List (Fin 4)) (s : State) : State :=
  ls.foldl (fun u l => u.post .cueDone l.val 0 0 (value l)) s

/-- The wait of one lane ends: its record, its context, and the other lanes. -/
theorem State.endWait_towardEmpty (h : s.WaitsTowardEmpty l) : ∃ t, s.endWait l = t
    ∧ t.evq = (s.post .cueDone l.val 0 0 (eventValue (slotByte (s.lane l).slot) 0 0 0)).evq ∧ t.out = s.out ∧ t.cues = s.cues
    ∧ ((t.lane l).state = .starved ∧ (t.lane l).wait = none) ∧ ∀ j, l ≠ j → t.lane j = s.lane j := by
  obtain ⟨k, b, hk, hb, note, pause, last, unpaused, empty⟩ := h
  refine ⟨_, State.endWait_notes hk hb pause last unpaused empty, ?_, ?_, ?_, ?_, fun j hj => ?_⟩
  · unfold State.noteBlock
    rw [if_pos note, hk]
    rfl
  · unfold State.noteBlock
    rw [if_pos note]
    exact State.out_post ..
  · exact State.cues_noteBlock ..
  · rw [State.lane_setLane, if_pos rfl]
    exact ⟨rfl, rfl⟩
  · rw [State.lane_setLane, if_neg hj]
    unfold State.lane
    rw [State.lanes_noteBlock]

/-- Each lane posts its record and stands before the next is taken (R83). -/
theorem State.wakeInTurn_towardEmpty {value : Fin 4 → BitVec 32} {ls : List (Fin 4)} {u : State} (distinct : ls.Nodup)
    (waits : ∀ l ∈ ls, s.WaitsTowardEmpty l) (values : ∀ l ∈ ls, value l = eventValue (slotByte (s.lane l).slot) 0 0 0)
    (evq : s.evq = u.evq) (out : s.out = u.out) :
    (s.wakeInTurn ls).evq = (State.postDones value ls u).evq
    ∧ (∀ l ∈ ls, ((s.wakeInTurn ls).lane l).state = .starved ∧ ((s.wakeInTurn ls).lane l).wait = none)
    ∧ ∀ j ∉ ls, (s.wakeInTurn ls).lane j = s.lane j := by
  induction ls generalizing s u with
  | nil => exact ⟨evq, nofun, fun _ _ => rfl⟩
  | cons l ls ih =>
    obtain ⟨fresh, distinct⟩ := List.nodup_cons.1 distinct
    obtain ⟨t, ended, posted, kept, cues, stands, others⟩ := State.endWait_towardEmpty (waits l List.mem_cons_self)
    have other (j : Fin 4) (hj : j ∈ ls) : t.lane j = s.lane j := others j fun e => fresh (e ▸ hj)
    rw [State.wakeInTurn_stands ended (by rw [stands.1]; exact LaneState.noConfusion)]
    obtain ⟨records, starved, rest⟩ := ih (s := t) (u := u.post .cueDone l.val 0 0 (value l)) distinct
      (fun j hj => by
        obtain ⟨k, b, h⟩ := waits j (List.mem_cons_of_mem l hj)
        rw [← other j hj, ← cues] at h
        exact ⟨k, b, h⟩)
      (fun j hj => by rw [other j hj]; exact values j (List.mem_cons_of_mem l hj))
      (by rw [posted, values l List.mem_cons_self]; exact State.evq_post_congr evq (by rw [out]) ..)
      (by rw [kept, out]; exact (State.out_post ..).symm)
    refine ⟨records, fun j hj => ?_, fun j hj => ?_⟩
    · rcases List.mem_cons.1 hj with rfl | hj
      · rw [rest j fresh]
        exact stands
      · exact starved j hj
    · obtain ⟨apart, hj⟩ := not_or.1 (mt List.mem_cons.2 hj)
      rw [rest j hj, others j (Ne.symm apart)]

/-- One lane is woken, at a block without NOTE whose link is EMPTY. -/
theorem State.wakeInTurn_one (hk : (s.lane l).slot = some k) (hb : s.cues.get k = some b) (note : b.note = false)
    (pause : b.pause = false) (last : b.last = false) (unpaused : (s.lane l).pauseRequested = false)
    (empty : s.cues.get b.link = none) :
    s.wakeInTurn [l]
      = s.setLane l { s.lane l with state := .starved, wait := none, slot := some b.link, budget := 0 } :=
  State.wakeInTurn_stands (State.endWait_starves hk hb note pause last unpaused empty)
    (by rw [State.lane_setLane, if_pos rfl]; exact LaneState.noConfusion) []

end

/-! ### Signals (R84) -/

section

variable {s : State} {h : Handle} {rest : List Handle}

theorem exec_handleNotLive (signals : s.signals = h :: rest) :
    exec .handleNotLive s = .next (State.wakeInTurn { s with signals := rest }
      (allLanes.filter fun l => (s.lane l).waitsOnHandle h)) := by
  show Host.Outcome.next s.nextSignal = _
  unfold State.nextSignal
  rw [signals]
  rfl

theorem exec_handleNotLive_idle (signals : s.signals = []) : exec .handleNotLive s = .next s := by
  show Host.Outcome.next s.nextSignal = _
  unfold State.nextSignal
  rw [signals]

end

/-! ### A routed code (R102, R105) -/

theorem ofNat_beNat_codeBytes (c : Code) : BitVec.ofNat 32 (beNat (codeBytes c)) = c := by
  have bound := c.isLt
  apply BitVec.eq_of_toNat_eq
  simp only [codeBytes, beNat, List.foldl_cons, List.foldl_nil, BitVec.extractLsb'_toNat, Nat.shiftRight_eq_div_pow,
    BitVec.toNat_ofNat]
  omega

theorem ofNat_beNat_halfBytes (x : Half) : BitVec.ofNat 16 (beNat (halfBytes x)) = x := by
  have bound := x.isLt
  apply BitVec.eq_of_toNat_eq
  simp only [halfBytes, beNat, List.foldl_cons, List.foldl_nil, BitVec.extractLsb'_toNat, Nat.shiftRight_eq_div_pow,
    BitVec.toNat_ofNat]
  omega

/-- A frame whose CRC is right gives its code to the filter (R102, R103). -/
theorem State.trigFrame_good (s : State) (c : Code) :
    s.trigFrame (codeBytes c ++ halfBytes (crc16 (codeBytes c)))
      = if s.trg.passes (crc16 (codeBytes c)) then s.routeCode c else s := by
  have code : (codeBytes c ++ halfBytes (crc16 (codeBytes c))).take 4 = codeBytes c := rfl
  have crc : (codeBytes c ++ halfBytes (crc16 (codeBytes c))).drop 4 = halfBytes (crc16 (codeBytes c)) := rfl
  unfold State.trigFrame
  rw [code, crc, ofNat_beNat_halfBytes]
  dsimp only
  rw [ofNat_beNat_codeBytes]
  exact if_neg fun h => h rfl

section

variable {s : State} {c : Code}

/-- No binding matches the code (R105 step 3). -/
theorem State.fireBindings_none (h : ∀ i : Fin 32, (s.binding i).enabled = true → (s.binding i).code ≠ c) :
    s.fireBindings c = (false, s) := by
  unfold State.fireBindings
  generalize allBindings = is
  induction is with
  | nil => rfl
  | cons i is ih =>
    have unmatched : (s.binding i).matches c = false := by
      unfold Binding.matches
      by_cases enabled : (s.binding i).enabled = true
      · rw [decide_eq_false (h i enabled), Bool.and_false]
      · rw [Bool.eq_false_of_not_eq_true enabled, Bool.false_and]
    rw [List.foldl_cons]
    dsimp only
    rw [unmatched]
    exact ih

/-- A code that one lane waits on (R83). -/
theorem State.reportCode_one {l : Fin 4} (waits : (s.lane l).wait = some (.code c))
    (others : ∀ j : Fin 4, j ≠ l → (s.lane j).wait ≠ some (.code c)) : s.reportCode c = (1, s.wakeInTurn [l]) := by
  have lanes : (allLanes.filter fun j => (s.lane j).waitsOnCode c) = [l] :=
    filter_allLanes_one (decide_eq_true waits) fun j hj => decide_eq_false (others j hj)
  unfold State.reportCode
  rw [lanes]
  rfl

/-- A code that a lane waited on is not counted as unbound (R105). The two calls are taken by cases, so that the kernel never
evaluates the 32 bindings' turns. -/
theorem State.routeCode_known {n : Nat} {m : Bool} {t u : State} (report : s.trg.report ≠ .all) (reported : s.reportCode c = (n, t))
    (fired : t.fireBindings c = (m, u)) (known : n ≠ 0) : s.routeCode c = u := by
  unfold State.routeCode
  rw [if_neg report]
  extract_lets v
  have same : v = s := rfl
  clear_value v
  subst same
  split
  next woken w woke =>
  cases reported.symm.trans woke
  split
  next matched w acted =>
  cases fired.symm.trans acted
  exact if_neg fun h => known h.1

/-- TRG after the byte that completes a frame (R100). -/
def State.frameTaken (s : State) : State :=
  { s with trg := { s.trg with rx := .hunting, bytes := [], gap := 0, reception := .idle } }

/-- The last byte of a frame whose CRC is right, with no filter (R100, R102, R103). -/
theorem exec_triggerFrameComplete {e last : Byte} (rx : s.trg.rx = .collecting) (taken : s.trg.reception ≠ .dropped)
    (bytes : s.trg.bytes = codeBytes c ++ [e]) (crc : halfBytes (crc16 (codeBytes c)) = [e, last]) (filter : s.trg.filterList = []) :
    exec (.triggerFrameComplete last) s = .next (s.frameTaken.routeCode c) := by
  show Host.Outcome.next (s.trigByte last true) = _
  have on : s.trg.rx ≠ .off := by rw [rx]; exact RxState.noConfusion
  have held : s.trg.bytes ++ [last] = codeBytes c ++ halfBytes (crc16 (codeBytes c)) := by
    rw [bytes, crc]
    rfl
  have five : ¬s.trg.bytes.length + 1 < 6 := by
    rw [bytes]
    exact Nat.lt_irrefl 6
  rw [State.trigByte_taken taken, State.noteTrg_on on, State.trigTake_collecting (by exact rx), if_pos rfl, if_neg (by exact five)]
  dsimp only
  rw [held, State.trigFrame_good]
  refine congrArg Host.Outcome.next (if_pos ?_)
  unfold Trg.passes
  rw [filter]
  rfl

end

/-- Settles O30: a wait that ends, by a signal for one lane, by a signal for all four, and by a routed code. -/
theorem signalOrCodeEndsAWait : Obligations.SignalOrCodeEndsAWait := by
  unfold Obligations.SignalOrCodeEndsAWait
  refine ⟨fun s => ⟨exec_handleNotLive_idle, fun h rest signals => ⟨fun unheard => ?_, ?_⟩⟩, fun h rest s signals waits => ?_, ?_⟩
  · have lanes : (allLanes.filter fun l => (s.lane l).waitsOnHandle h) = [] :=
      List.filter_eq_nil_iff.2 fun l _ => by simpa [Lane.waitsOnHandle] using unheard l
    rw [exec_handleNotLive signals, lanes]
    rfl
  · intro l k b waits others hk hb note pause last unpaused empty
    have lanes : (allLanes.filter fun l => (s.lane l).waitsOnHandle h) = [l] :=
      filter_allLanes_one (decide_eq_true waits) fun j hj => decide_eq_false (others j hj)
    rw [exec_handleNotLive signals, lanes,
      State.wakeInTurn_one (s := { s with signals := rest }) hk hb note pause last unpaused empty]
    rfl
  · have lanes : (allLanes.filter fun l => (s.lane l).waitsOnHandle h) = allLanes :=
      List.filter_eq_self.2 fun l _ => decide_eq_true (waits l).1
    obtain ⟨records, stands, -⟩ := State.wakeInTurn_towardEmpty (s := { s with signals := rest }) (u := s) (ls := allLanes)
      (by decide) (fun l _ => (waits l).2) (fun l _ => rfl) rfl rfl
    rw [exec_handleNotLive signals, lanes]
    simp only [State.postDones, allLanes, List.foldl_cons, List.foldl_nil] at records
    exact ⟨_, rfl, records, fun l => stands l (mem_allLanes l)⟩
  · intro c e last l k b s rx taken bytes crc filter report waits others unbound hk hb note pause last' unpaused empty
    have reported := State.reportCode_one (s := s.frameTaken) waits others
    rw [State.wakeInTurn_one (s := s.frameTaken) hk hb note pause last' unpaused empty] at reported
    rw [exec_triggerFrameComplete rx taken bytes crc filter,
      State.routeCode_known (s := s.frameTaken) report reported (State.fireBindings_none unbound) (by decide)]
    rfl

end Sys2Proof.Machine
end

section
/-! PROOFS. LANE START (R76 to R78), and one block of a RUNNING lane with no command waiting: its op, its completion and its faults
(R61 to R68, R79 to R81, R88). -/

namespace Sys2Proof.Machine

/-! ### LANE START (R77) -/

section

variable {s : State} {tag lane slot clear : Byte} {l : Fin 4} {b : CueBlock}

theorem onLane_bad {f : Fin 4 → State → Answer × State} (h : 3 < lane.toNat) (s : State) : onLane lane f s = badField s 0 := by
  unfold onLane
  rw [finOf_of_le (by omega)]

theorem onLane_good {f : Fin 4 → State → Answer × State} (h : lane.toNat = l.val) (s : State) : onLane lane f s = f l s := by
  have index : finOf 4 lane.toNat = some l := by
    rw [h]
    exact finOf_of_lt l.isLt
  unfold onLane
  rw [index]

/-- A busy lane refuses LANE START (R77). -/
theorem State.laneStartAt_busy (idle : (s.lane l).state ≠ .idle) (faulted : (s.lane l).state ≠ .faulted) :
    State.laneStartAt slot clear l s = refuse s .busy := by
  unfold State.laneStartAt
  cases h : (s.lane l).state with
  | idle => exact absurd h idle
  | faulted => exact absurd h faulted
  | _ => rfl

theorem State.laneStartAt_starts (h : (s.lane l).state = .idle ∨ (s.lane l).state = .faulted) :
    State.laneStartAt slot clear l s = (Answer.ok, s.startLane l slot.toFin (yesNo clear) .link) := by
  unfold State.laneStartAt
  rcases h with h | h <;> rw [h]

/-- The part's state after LANE START on a lane that is not busy, from the run it makes of the state with the reply owed. -/
theorem exec_laneStart {t : State} (hs : s.takesRequests) (hl : lane.toNat = l.val)
    (h : (s.lane l).state = .idle ∨ (s.lane l).state = .faulted)
    (run : s.oweReply.startLane l slot.toFin (yesNo clear) .link = t.oweReply) :
    exec (.laneStart tag lane slot clear) s = .next (t.replying tag 0xA8 .ok []) := by
  refine State.request_answers hs (type := 0x28) (by decide) tag ((onLane_good hl _).trans ?_)
  rw [State.laneStartAt_starts (s := s.oweReply) h, run]
  rfl

/-- The handle slots after LANE START (R76). -/
def startHandles (s : State) (l : Fin 4) (clear : Byte) : Table (Option Handle) 4 :=
  if clear = 0 then (s.lane l).handles else Table.const 4 none

theorem startHandles_eq (s : State) (l : Fin 4) (clear : Byte) :
    ((s.lane l).prepared (yesNo clear) .link).handles = startHandles s l clear := by
  unfold Lane.prepared startHandles yesNo
  by_cases h : clear = 0 <;> simp [h]

end

/-! ### The run that LANE START begins -/

theorem State.takeNext_setLane {s : State} {l : Fin 4} {k : Fin 256} {b : CueBlock} {x : Lane} (running : x.state = .running)
    (hk : x.slot = some k) (hb : s.cues.get k = some b) : (s.setLane l x).takeNext l = (s.setLane l x).takeBlock l k b := by
  have lane : (s.setLane l x).lane l = x := Table.get_set_self ..
  exact State.takeNext_running (by rw [lane]; exact running) (by rw [lane]; exact hk) hb

theorem State.post_oweReply (s : State) (k : EventKind) (n : Nat) (g r : Byte) (x : BitVec 32) :
    s.oweReply.post k n g r x = (s.post k n g r x).oweReply := by
  rw [State.post_eq s.oweReply, State.post_eq s, State.evq_post_congr (s := s) (t := s.oweReply) rfl rfl]
  rfl

theorem State.noteBlock_oweReply (s : State) (l : Fin 4) (k : Fin 256) (b : CueBlock) :
    s.oweReply.noteBlock l k b = (s.noteBlock l k b).oweReply := by
  unfold State.noteBlock
  split
  · exact State.post_oweReply ..
  · rfl

theorem State.stopLane_oweReply (s : State) (l : Fin 4) (r : NoticeReason) (k : Fin 256) (quiet : Nat) (y : Lane) :
    s.oweReply.stopLane l r k quiet y = (s.stopLane l r k quiet y).oweReply := by
  rw [State.stopLane_eq, State.stopLane_eq, State.post_oweReply]
  split <;> rfl

/-- MARK's record, by the fields of its value (R68, R177). -/
theorem State.postMark_eq (s : State) (l : Fin 4) (v : Half) (k : Fin 256) :
    s.postMark l v k
      = s.post .mark l.val 0 0 (eventValue (v.extractLsb' 8 8) (v.extractLsb' 0 8) (byte1 k.val) 0) := by
  have high : byte1 (v.toNat / 256) = v.extractLsb' 8 8 := byte1_div v 8
  have low : byte1 v.toNat = v.extractLsb' 0 8 := by
    rw [← byte1_div v 0, pow_zero, Nat.div_one]
  unfold State.postMark
  rw [high, low]

/-- A lane whose run has just begun on LANE START, in some state at some slot (R74, R76). -/
def startedLane (handles : Table (Option Handle) 4) (state : LaneState) (slot : Option (Fin 256)) : Lane :=
  { state, slot, origin := some .link, handles, rep := none, wait := none, pauseRequested := false, budget := 0
    notice := none, pendingStart := none, fault := none }

section

variable {s : State} {tag lane slot clear : Byte} {l : Fin 4} {b : CueBlock}

theorem prepared_runningAt (s : State) (l : Fin 4) (clear : Byte) (k : Fin 256) :
    ((s.lane l).prepared (yesNo clear) .link).runningAt k = startedLane (startHandles s l clear) .running (some k) := by
  rw [← startHandles_eq]
  rfl

theorem prepared_starvedAt (s : State) (l : Fin 4) (clear : Byte) (k : Fin 256) :
    ((s.lane l).prepared (yesNo clear) .link).starvedAt k = startedLane (startHandles s l clear) .starved (some k) := by
  rw [← startHandles_eq]
  rfl

/-- LANE START at an EMPTY slot (R78). -/
theorem exec_laneStart_starves (hs : s.takesRequests) (hl : lane.toNat = l.val)
    (h : (s.lane l).state = .idle ∨ (s.lane l).state = .faulted) (empty : s.cues.get slot.toFin = none) :
    exec (.laneStart tag lane slot clear) s
      = .next ((s.setLane l (startedLane (startHandles s l clear) .starved (some slot.toFin))).replying tag 0xA8 .ok []) := by
  refine exec_laneStart hs hl h ((State.startLane_empty (s := s.oweReply) empty l _ _).trans ?_)
  rw [State.lane_oweReply, prepared_starvedAt]
  rfl

/-- LANE START at a block that takes the lane into a wait (R64 to R66, R82). -/
theorem exec_laneStart_waits {w : Wait} {t : State} (hs : s.takesRequests) (hl : lane.toNat = l.val)
    (h : (s.lane l).state = .idle ∨ (s.lane l).state = .faulted) (hb : s.cues.get slot.toFin = some b)
    (ht : t = s.oweReply.setLane l (startedLane (startHandles s l clear) .running (some slot.toFin)))
    (op : t.takeOp l slot.toFin b = (.stands, t.setLane l ((t.lane l).waitingOn w))) :
    exec (.laneStart tag lane slot clear) s
      = .next ((s.setLane l { startedLane (startHandles s l clear) .waiting (some slot.toFin) with wait := some w }).replying
          tag 0xA8 .ok []) := by
  refine exec_laneStart hs hl h ?_
  unfold State.startLane
  rw [State.beginRun_block (s := s.oweReply) hb, State.lane_oweReply, prepared_runningAt]
  rw [← prepared_runningAt] at ht ⊢
  rw [← ht, State.fetched_runLane_waits ht hb op, prepared_runningAt]
  rfl

/-- LANE START at a MARK block from which the lane does not go on (R68, R80). -/
theorem exec_laneStart_mark {v : Half} {r : NoticeReason} {y : Lane} (hs : s.takesRequests) (hl : lane.toNat = l.val)
    (h : (s.lane l).state = .idle ∨ (s.lane l).state = .faulted) (hb : s.cues.get slot.toFin = some b) (op : b.op = .mark v)
    (ends : (b.pause = true ∧ r = .pause ∧ y = startedLane (startHandles s l clear) .paused (some slot.toFin))
      ∨ (b.pause = false ∧ b.last = true ∧ r = .runEnd ∧ y = startedLane (startHandles s l clear) .idle none)) :
    exec (.laneStart tag lane slot clear) s
      = .next ((((s.postMark l v slot.toFin).noteBlock l slot.toFin b).stopLane l r slot.toFin b.quiet y).replying
          tag 0xA8 .ok []) := by
  refine exec_laneStart hs hl h ?_
  unfold State.startLane
  rw [State.beginRun_block (s := s.oweReply) hb, State.lane_oweReply, prepared_runningAt]
  have taken : (s.oweReply.setLane l (startedLane (startHandles s l clear) .running (some slot.toFin))).takeOp l slot.toFin b
      = (.completes none, (s.oweReply.postMark l v slot.toFin).setLane l
          (startedLane (startHandles s l clear) .running (some slot.toFin))) := by
    rw [State.takeOp_mark op]
    unfold State.postMark
    rw [State.post_setLane]
  refine State.runLane_of_takeNext ((State.takeNext_setLane (s := s.oweReply) rfl rfl hb).trans ?_) ?_
  · have marked : s.oweReply.postMark l v slot.toFin = (s.postMark l v slot.toFin).oweReply := State.post_oweReply ..
    rw [← State.stopLane_oweReply, ← State.noteBlock_oweReply, ← marked]
    rcases ends with ⟨pause, rfl, rfl⟩ | ⟨pause, last, rfl, rfl⟩
    · exact State.takeBlock_pauses taken (show 0 < 63 by decide) (.inl pause)
    · exact State.takeBlock_ends taken (show 0 < 63 by decide) last pause rfl rfl
  · obtain ⟨notice, stopped⟩ := State.lane_stopLane ((s.postMark l v slot.toFin).noteBlock l slot.toFin b) l r slot.toFin b.quiet y
    rw [State.lane_oweReply, stopped]
    rcases ends with ⟨-, -, rfl⟩ | ⟨-, -, -, rfl⟩
    · exact LaneState.noConfusion
    · exact LaneState.noConfusion

end

/-! ### The step of a RUNNING lane (R79, log 6) -/

/-- With no command waiting and no retry standing, the lowest RUNNING lane stands before a block. -/
structure State.TakesNext (s : State) (l : Fin 4) (k : Fin 256) (b : CueBlock) : Prop where
  pending : s.pending = []
  retry : s.alc.retry = none
  running : (s.lane l).state = .running
  lowest : ∀ j : Fin 4, j < l → (s.lane j).state ≠ .running
  slot : (s.lane l).slot = some k
  block : s.cues.get k = some b

/-- The lanes and the cue slots are as they were. -/
structure KeepsLanes (s u : State) : Prop where
  lanes : u.lanes = s.lanes
  cues : u.cues = s.cues

theorem KeepsLanes.refl (s : State) : KeepsLanes s s := ⟨rfl, rfl⟩

theorem KeepsLanes.post {s u : State} (h : KeepsLanes s u) (k : EventKind) (n : Nat) (g r : Byte) (x : BitVec 32) :
    KeepsLanes s (u.post k n g r x) := ⟨(State.lanes_post ..).trans h.lanes, (State.cues_post ..).trans h.cues⟩

/-- What voices and the allocator do keeps the lanes and the cue slots. -/
theorem KeepsLanes.of_apart {s u : State} (moves : Moves s u) (apart : Apart s u) : KeepsLanes s u :=
  ⟨apart.lanes, moves.untouched.cues⟩

theorem KeepsLanes.noteBlock {s u : State} (h : KeepsLanes s u) (l : Fin 4) (k : Fin 256) (b : CueBlock) :
    KeepsLanes s (u.noteBlock l k b) := ⟨(State.lanes_noteBlock ..).trans h.lanes, (State.cues_noteBlock ..).trans h.cues⟩

theorem KeepsLanes.lane {s u : State} (h : KeepsLanes s u) (l : Fin 4) : u.lane l = s.lane l := by
  unfold State.lane
  rw [h.lanes]

/-- The state u with the lanes of s, but for one lane's context. -/
def State.withLane (s u : State) (l : Fin 4) (y : Lane) : State := { u with lanes := s.lanes.set l y }

theorem KeepsLanes.setLane {s u : State} (h : KeepsLanes s u) (l : Fin 4) (y : Lane) : u.setLane l y = s.withLane u l y := by
  unfold State.setLane State.withLane
  rw [h.lanes]

/-- A lane that stops running in its context y, in the words of the statement: its notice posted, or held for the quiet time. -/
def State.stopsAt (s u : State) (l : Fin 4) (r : NoticeReason) (k : Fin 256) (quiet : Nat) (y : Lane) : State :=
  if quiet = 0 then
    s.withLane (u.post .laneIdle l.val 0 r.code
      (eventValue (byte1 k.val) 0 (originCode (s.lane l).origin) (originBinding (s.lane l).origin))) l y
  else s.withLane u l { y with notice := some ⟨r, quiet * 8, k⟩ }

theorem State.lane_withLane (s u : State) (l : Fin 4) (y : Lane) : (s.withLane u l y).lane l = y := Table.get_set_self ..

theorem State.setLane_withLane (s u : State) (l : Fin 4) (y z : Lane) : (s.withLane u l y).setLane l z = s.withLane u l z := by
  unfold State.setLane State.withLane
  rw [Table.set_set_self]

theorem State.setLane_stopsAt (s u : State) (l : Fin 4) (r : NoticeReason) (k : Fin 256) (quiet : Nat) (y z : Lane) :
    (s.stopsAt u l r k quiet y).setLane l z = s.withLane (s.stopsAt u l r k quiet y) l z := by
  unfold State.stopsAt
  split
  · exact State.setLane_withLane ..
  · exact State.setLane_withLane ..

theorem KeepsLanes.stopLane {s u : State} (h : KeepsLanes s u) {l : Fin 4} {y : Lane} (origin : y.origin = (s.lane l).origin)
    (r : NoticeReason) (k : Fin 256) (quiet : Nat) : u.stopLane l r k quiet y = s.stopsAt u l r k quiet y := by
  unfold State.stopsAt
  rw [State.stopLane_eq, ← origin, h.setLane, (h.post ..).setLane]

/-- A lane that faults at a slot, in the words of the statement (R88). -/
def State.faultsAt (s u : State) (l : Fin 4) (k : Fin 256) (y : Lane) (f : LaneFault) : State :=
  s.withLane (u.post .laneIdle l.val 0 3
    (eventValue (byte1 k.val) f.code (originCode (s.lane l).origin) (originBinding (s.lane l).origin))) l
    { y with state := .faulted, fault := some (f, k), wait := none, rep := none, pendingStart := none, pauseRequested := false }

theorem KeepsLanes.faultLane {s u : State} (h : KeepsLanes s u) {l : Fin 4} {k : Fin 256} {y : Lane}
    (origin : y.origin = (s.lane l).origin) (slot : y.slot = some k) (f : LaneFault) :
    (u.setLane l y).faultLane l k f = s.faultsAt u l k y f := by
  have lane (z : Lane) : (u.setLane l z).lane l = z := Table.get_set_self ..
  unfold State.faultLane State.postLaneIdle State.faultsAt
  dsimp only
  rw [lane, State.setLane_setLane, lane, State.post_setLane, (h.post ..).setLane, ← origin, slot]
  rfl

/-- The context of a lane that takes its pending start at an EMPTY slot (R76, R78, R94). -/
def Lane.restarted (y : Lane) (p : PendingStart) : Lane := (y.prepared p.clear (.binding p.binding)).starvedAt p.entry

section

variable {s u t : State} {l : Fin 4} {k : Fin 256} {b : CueBlock} {y : Lane}

theorem State.TakesNext.step_stands (h : s.TakesNext l k b) (taken : s.takeBlock l k b = t) (stands : (t.lane l).state ≠ .running) :
    step s = .next t := by
  rw [step_running h.pending h.retry h.running h.lowest h.slot h.block, taken, State.runOn_stands stands]

theorem State.TakesNext.step_withLane (h : s.TakesNext l k b) (taken : s.takeBlock l k b = s.withLane u l y)
    (stands : y.state ≠ .running) : step s = .next (s.withLane u l y) :=
  h.step_stands taken (by rw [State.lane_withLane]; exact stands)

theorem State.TakesNext.step_stopsAt (h : s.TakesNext l k b) {r : NoticeReason} {quiet : Nat}
    (taken : s.takeBlock l k b = s.stopsAt u l r k quiet y) (stands : y.state ≠ .running) :
    step s = .next (s.stopsAt u l r k quiet y) := by
  unfold State.stopsAt at taken ⊢
  split
  · next e =>
    rw [if_pos e] at taken
    exact h.step_withLane taken stands
  · next e =>
    rw [if_neg e] at taken
    exact h.step_withLane taken stands

/-- What a block that completes comes to, from the state u and the lane's context y after its op: the lane goes on to an EMPTY
link, is PAUSED, or is IDLE and takes a pending start at an EMPTY slot (R80). -/
def State.Ends (s u : State) (l : Fin 4) (k : Fin 256) (b : CueBlock) (y : Lane) : Prop :=
  (b.pause = false ∧ b.last = false ∧ (s.lane l).pauseRequested = false ∧ (s.lane l).budget < 63 → s.cues.get b.link = none →
    step s = .next (s.withLane (u.noteBlock l k b) l (y.starvedAt b.link)))
  ∧ ((s.lane l).budget < 63 → b.pause = true ∨ (s.lane l).pauseRequested = true →
    step s = .next (s.stopsAt (u.noteBlock l k b) l .pause k b.quiet (y.pausedAt k)))
  ∧ ((s.lane l).budget < 63 → b.last = true → b.pause = false → (s.lane l).pauseRequested = false →
    ((s.lane l).pendingStart = none → step s = .next (s.stopsAt (u.noteBlock l k b) l .runEnd k b.quiet y.idled))
    ∧ ∀ p, (s.lane l).pendingStart = some p → s.cues.get p.entry = none →
      step s = .next (s.withLane (s.stopsAt (u.noteBlock l k b) l .runEnd k b.quiet y.idled) l (y.restarted p)))

/-- The context y of a lane after an op that completes at once: what the completion reads of the lane is as it was in x. -/
structure Lane.SameRun (x y : Lane) : Prop where
  slot : y.slot = x.slot
  origin : y.origin = x.origin
  pauseRequested : y.pauseRequested = x.pauseRequested
  budget : y.budget = x.budget
  pendingStart : y.pendingStart = x.pendingStart

theorem Lane.SameRun.refl (x : Lane) : x.SameRun x := ⟨rfl, rfl, rfl, rfl, rfl⟩

/-- A block whose op completes at once (R80). -/
theorem State.TakesNext.ends (h : s.TakesNext l k b) (keeps : KeepsLanes s u) (same : (s.lane l).SameRun y)
    (op : s.takeOp l k b = (.completes none, u.setLane l y)) : s.Ends u l k b y := by
  have noted := keeps.noteBlock l k b
  unfold State.Ends
  rw [← same.budget, ← same.pauseRequested, ← same.pendingStart]
  refine ⟨fun ⟨pause, last, unpaused, budget⟩ empty => ?_, fun budget pause => ?_, fun budget last pause unpaused =>
    ⟨fun alone => ?_, fun p pending empty => ?_⟩⟩
  · refine h.step_withLane ?_ LaneState.noConfusion
    rw [← noted.setLane]
    exact State.takeBlock_starves op budget (.inr ⟨rfl, rfl, pause, last, unpaused⟩) (by rw [keeps.cues]; exact empty)
  · refine h.step_stopsAt ?_ LaneState.noConfusion
    rw [← noted.stopLane (y := y.pausedAt k) same.origin]
    exact State.takeBlock_pauses op budget pause
  · refine h.step_stopsAt ?_ LaneState.noConfusion
    rw [← noted.stopLane (y := y.idled) same.origin]
    exact State.takeBlock_ends op budget last pause unpaused alone
  · refine h.step_withLane ?_ LaneState.noConfusion
    have stopped := noted.stopLane (l := l) (y := y.idled) same.origin .runEnd k b.quiet
    obtain ⟨notice, lane⟩ := State.lane_stopLane (u.noteBlock l k b) l .runEnd k b.quiet y.idled
    rw [State.takeBlock_restarts op budget last pause unpaused pending,
      State.beginRun_empty (by rw [State.cues_stopLane, noted.cues]; exact empty), lane, stopped]
    exact State.setLane_stopsAt ..

end

section

variable {s u t : State} {l : Fin 4} {k n : Fin 256} {b : CueBlock} {y : Lane}

/-- The 64th block of a run faults the lane (R81, R88). -/
theorem State.TakesNext.runaway (h : s.TakesNext l k b) (keeps : KeepsLanes s u) (same : (s.lane l).SameRun y)
    (op : s.takeOp l k b = (.completes none, u.setLane l y)) (budget : (s.lane l).budget = 63) :
    step s = .next (s.faultsAt u l k { y with budget := 64 } .runaway) := by
  refine h.step_withLane ?_ LaneState.noConfusion
  rw [State.takeBlock_runaway op (same.budget.trans budget)]
  exact keeps.faultLane (y := { y with budget := 64 }) same.origin (same.slot.trans h.slot) .runaway

/-- A block whose op faults the lane (R88). -/
theorem State.TakesNext.faults (h : s.TakesNext l k b) (keeps : KeepsLanes s u) (same : (s.lane l).SameRun y) {f : LaneFault}
    (op : s.takeOp l k b = (.stands, (u.setLane l y).faultLane l k f)) : step s = .next (s.faultsAt u l k y f) := by
  refine h.step_withLane ?_ LaneState.noConfusion
  rw [State.takeBlock_stands op]
  exact keeps.faultLane same.origin (same.slot.trans h.slot) f

/-- A block whose op takes the lane into a wait (R82). -/
theorem State.TakesNext.waits (h : s.TakesNext l k b) (keeps : KeepsLanes s u) {w : Wait}
    (op : s.takeOp l k b = (.stands, u.setLane l (y.waitingOn w))) : step s = .next (s.withLane u l (y.waitingOn w)) := by
  refine h.step_withLane ?_ LaneState.noConfusion
  rw [State.takeBlock_stands op, keeps.setLane]

/-! ### The ops on handles (R63, R65) -/

theorem State.onHandle_empty {i : Fin 4} (h : (s.lane l).handles.get i = none) (f : State → Handle → Status × State) :
    s.onHandle l i f = s := by
  unfold State.onHandle
  rw [h]

theorem State.onHandle_some {i : Fin 4} {d : Handle} (h : (s.lane l).handles.get i = some d)
    (f : State → Handle → Status × State) : s.onHandle l i f = (f s d).2 := by
  unfold State.onHandle
  rw [h]

/-- A block that completes with the lane's context as it was. -/
theorem State.TakesNext.ends_same (h : s.TakesNext l k b) (keeps : KeepsLanes s u) (op : s.takeOp l k b = (.completes none, u)) :
    s.Ends u l k b (s.lane l) := by
  refine h.ends keeps (.refl _) ?_
  rw [State.setLane_lane (keeps.lane l)]
  exact op

/-- RAMP, RELEASE or STOP on a handle slot, by the operation it makes on a handle (R63). -/
theorem State.TakesNext.ends_onHandle (h : s.TakesNext l k b) {i : Fin 4} {f : State → Handle → Status × State}
    (op : s.takeOp l k b = (.completes none, s.onHandle l i f)) (keeps : ∀ d, KeepsLanes s (f s d).2) :
    match (s.lane l).handles.get i with
    | none => s.Ends s l k b (s.lane l)
    | some d => s.Ends (f s d).2 l k b (s.lane l) := by
  cases held : (s.lane l).handles.get i with
  | none =>
    rw [State.onHandle_empty held] at op
    exact h.ends_same (.refl s) op
  | some d =>
    rw [State.onHandle_some held] at op
    exact h.ends_same (keeps d) op

/-! ### PLAY (R61, R62) -/

/-- The lane's context with the handle slot of a PLAY block set (R61, R62). -/
theorem Lane.SameRun.setHandle (x : Lane) (i : Fin 4) (d : Option Handle) : x.SameRun (x.setHandle i d) := ⟨rfl, rfl, rfl, rfl, rfl⟩

section

variable {p : PlayOperands}

theorem KeepsLanes.takeOrder (s : State) (o : StartOrder) (w : Owner) : KeepsLanes s (s.takeOrder o w).2 :=
  .of_apart (Moves.takeOrder ..) (Apart.takeOrder ..)

/-- An order that ALC binds or attaches: the handle is stored, and the block completes (R61). -/
theorem State.takePlay_started {d : Handle} (h : s.takeOrder p.order (.lane l) = (.sounding d, u)
      ∨ s.takeOrder p.order (.lane l) = (.awaiting d, u)) :
    KeepsLanes s u ∧ s.takePlay l k p = (.completes none, u.setLane l ((s.lane l).setHandle p.h (some d))) := by
  have keeps := KeepsLanes.takeOrder s p.order (.lane l)
  unfold State.takePlay
  rcases h with h | h <;>
  · rw [h] at keeps ⊢
    exact ⟨keeps, by rw [← keeps.lane l]⟩

/-- An order that fails, by the block's policy (R62). -/
theorem State.takePlay_fails {st : Status} (h : s.orderFails p.order st) :
    s.takePlay l k p = (s.counted 9).playFailed l k p st := by
  unfold State.takePlay
  rw [State.takeOrder_fails h]

/-- A failure that completes the block: its START_FAIL is posted (R62). -/
theorem State.playFailed_skips {st : Status} (h : p.policy = .skip ∨ (p.policy = .retry ∧ st ≠ .noVoice)) :
    s.playFailed l k p st = (.completes none, (s.post .startFail l.val 0 st.code (eventValue (byte1 k.val) 0 0 0)).setLane l
      ((s.lane l).setHandle p.h none)) := by
  unfold State.playFailed State.postStartFail
  dsimp only
  rw [State.post_setLane]
  rcases h with h | ⟨h, voices⟩
  · rw [h]
  · rw [h, if_neg voices]

theorem State.playFailed_retries (h : p.policy = .retry) (standing : s.alc.retry = none) :
    s.playFailed l k p .noVoice = (.stands, s.setLane l (((s.lane l).setHandle p.h none).waitingOn (.start p.order))) := by
  have lane : (s.setLane l ((s.lane l).setHandle p.h none)).lane l = (s.lane l).setHandle p.h none := Table.get_set_self ..
  unfold State.playFailed State.enterStartWait
  rw [h]
  dsimp only
  rw [if_pos rfl, lane, State.setLane_setLane, State.alc_setLane, standing]
  exact congrArg _ (State.setRetry_none (by exact standing))

theorem State.playFailed_faults (h : p.policy = .fault) (st : Status) :
    s.playFailed l k p st = (.stands, (s.setLane l ((s.lane l).setHandle p.h none)).faultLane l k (faultOf st)) := by
  unfold State.playFailed
  rw [h]

end

end

/-! ### REPEAT (R67) and the block after (R79) -/

section

variable {s u : State} {l : Fin 4} {k n target link : Fin 256} {b c : CueBlock} {y : Lane} {count : Nat}

/-- A counted loop begins (R67). -/
theorem State.takeRepeat_begins (h : (s.lane l).rep = none) : s.takeRepeat l k target link count
    = (.completes (some target), s.setLane l { s.lane l with rep := some ⟨k, count⟩ }) := by
  unfold State.takeRepeat
  dsimp only
  rw [h]

/-- A counted loop of another block is in progress (R67). -/
theorem State.takeRepeat_nested {q : Repeat} (h : (s.lane l).rep = some q) (owner : q.owner ≠ k) :
    s.takeRepeat l k target link count = (.stands, s.faultLane l k .nestedRepeat) := by
  unfold State.takeRepeat
  dsimp only
  rw [h]
  exact if_pos owner

/-- The block's own loop goes round again (R67). -/
theorem State.takeRepeat_again {q : Repeat} (h : (s.lane l).rep = some q) (owner : q.owner = k) (more : 1 < q.remaining) :
    s.takeRepeat l k target link count
      = (.completes (some target), s.setLane l { s.lane l with rep := some ⟨k, q.remaining - 1⟩ }) := by
  unfold State.takeRepeat
  dsimp only
  rw [h]
  dsimp only
  rw [if_neg (not_not.2 owner), if_pos more]

/-- The block's own loop is done (R67). -/
theorem State.takeRepeat_done {q : Repeat} (h : (s.lane l).rep = some q) (owner : q.owner = k) (done : q.remaining ≤ 1) :
    s.takeRepeat l k target link count = (.completes (some link), s.setLane l { s.lane l with rep := none }) := by
  unfold State.takeRepeat
  dsimp only
  rw [h]
  dsimp only
  rw [if_neg (not_not.2 owner), if_neg (not_lt.2 done)]

/-- A REPEAT that names an EMPTY slot (R67, R78). -/
theorem State.TakesNext.goesTo (h : s.TakesNext l k b) (op : s.takeOp l k b = (.completes (some n), s.setLane l y))
    (budget : y.budget < 63) (empty : s.cues.get n = none) :
    step s = .next (s.withLane (s.noteBlock l k b) l (y.starvedAt n)) := by
  refine h.step_withLane ?_ LaneState.noConfusion
  rw [← ((KeepsLanes.refl s).noteBlock l k b).setLane]
  exact State.takeBlock_starves op budget (.inl rfl) empty

/-- Toward a link that holds a block, the next point between two blocks is reached (R79, log 6). -/
theorem State.TakesNext.goesOn (h : s.TakesNext l k b) (keeps : KeepsLanes s u) (op : s.takeOp l k b = (.completes none, u.setLane l y))
    (budget : y.budget < 63) (pause : b.pause = false) (last : b.last = false) (unpaused : y.pauseRequested = false)
    (next : s.cues.get b.link = some c) :
    step s = .next (State.runOn laneFuel
      (s.withLane (u.noteBlock l k b) l (({ y with budget := y.budget + 1 } : Lane).runningAt b.link)) l) := by
  have noted := keeps.noteBlock l k b
  have lane : ((u.noteBlock l k b).setLane l { y with budget := y.budget + 1 }).lane l = { y with budget := y.budget + 1 } :=
    Table.get_set_self ..
  rw [step_running h.pending h.retry h.running h.lowest h.slot h.block,
    State.takeBlock_goesOn op budget (.inr ⟨rfl, rfl, pause, last, unpaused⟩),
    State.fetch_block (b := c) (by rw [State.cues_setLane, noted.cues]; exact next), lane, State.setLane_setLane, noted.setLane]

/-- A lane at a block, where another command is taken before it (R79, log 6). -/
theorem State.runOn_withLane_opened (fuel : Nat) (running : y.state = .running) (slot : y.slot = some n) (block : u.cues.get n = some c)
    (opened : u.openings.headD false = true) :
    State.runOn (fuel + 1) (s.withLane u l y) l = { s.withLane u l y with openings := u.openings.tail } := by
  have lane := State.lane_withLane s u l y
  have next : (s.withLane u l y).runningBlock l = some (n, c) :=
    State.runningBlock_running (by rw [lane]; exact running) (by rw [lane]; exact slot) block
  exact State.runOn_opened (s := s.withLane u l y) (l := l) (by rw [next]; rfl) opened fuel

/-- A lane at a WAIT_TIME block, which it takes with no command before it (R64, R79, log 6). -/
theorem State.runOn_withLane_waits (fuel : Nat) {t : Nat} (running : y.state = .running) (slot : y.slot = some n)
    (block : u.cues.get n = some c) (closed : u.openings.headD false = false) (op : c.op = .waitTime t) :
    State.runOn (fuel + 1) (s.withLane u l y) l
      = s.withLane { u with openings := u.openings.tail } l (y.waitingOn (.time t)) := by
  have lane0 := State.lane_withLane s u l y
  have lane : (s.withLane u l y).opening.2.lane l = y := Table.get_set_self ..
  have next : (s.withLane u l y).runningBlock l = some (n, c) :=
    State.runningBlock_running (by rw [lane0]; exact running) (by rw [lane0]; exact slot) block
  have taken : (s.withLane u l y).opening.2.takeNext l
      = s.withLane { u with openings := u.openings.tail } l (y.waitingOn (.time t)) := by
    rw [State.takeNext_running (s := (s.withLane u l y).opening.2) (by rw [lane]; exact running) (by rw [lane]; exact slot) block,
      State.takeBlock_stands (State.takeOp_waitTime op), lane]
    exact State.setLane_withLane s { u with openings := u.openings.tail } l y _
  have stands : ((s.withLane { u with openings := u.openings.tail } l (y.waitingOn (.time t))).lane l).state ≠ .running := by
    rw [State.lane_withLane]
    exact LaneState.noConfusion
  rw [State.runOn_next (s := s.withLane u l y) (l := l) (by rw [next]; rfl) closed, taken, State.runOn_stands stands]

end

/-! ### One block of a RUNNING lane, by its op -/

section

variable {s u : State} {l : Fin 4} {k : Fin 256} {b : CueBlock}

theorem KeepsLanes.counted (s : State) (i : Fin 11) : KeepsLanes s (s.counted i) := ⟨rfl, rfl⟩

/-- A PLAY block whose order ALC binds or attaches (R61, R80, R81). -/
theorem State.TakesNext.play_started (h : s.TakesNext l k b) {p : PlayOperands} (op : b.op = .play p) {d : Handle}
    (started : s.takeOrder p.order (.lane l) = (.sounding d, u) ∨ s.takeOrder p.order (.lane l) = (.awaiting d, u)) :
    s.Ends u l k b ((s.lane l).setHandle p.h (some d))
    ∧ ((s.lane l).budget = 63 →
      step s = .next (s.faultsAt u l k { (s.lane l).setHandle p.h (some d) with budget := 64 } .runaway)) := by
  obtain ⟨keeps, taken⟩ := State.takePlay_started (k := k) started
  rw [← State.takeOp_play op] at taken
  exact ⟨h.ends keeps (.setHandle ..) taken, h.runaway keeps (.setHandle ..) taken⟩

section

variable {p : PlayOperands} {st : Status}

/-- A PLAY block whose order fails, and whose policy completes it (R62). -/
theorem State.TakesNext.play_skips (h : s.TakesNext l k b) (op : b.op = .play p) (fails : s.orderFails p.order st)
    (policy : p.policy = .skip ∨ (p.policy = .retry ∧ st ≠ .noVoice)) :
    s.Ends ((s.counted 9).post .startFail l.val 0 st.code (eventValue (byte1 k.val) 0 0 0)) l k b
      ((s.lane l).setHandle p.h none) := by
  refine h.ends ((KeepsLanes.counted s 9).post ..) (.setHandle ..) ?_
  rw [State.takeOp_play op, State.takePlay_fails fails]
  exact State.playFailed_skips policy

/-- A PLAY block that waits for a voice (R62, R66). -/
theorem State.TakesNext.play_retries (h : s.TakesNext l k b) (op : b.op = .play p) (fails : s.orderFails p.order .noVoice)
    (policy : p.policy = .retry) :
    step s = .next (s.withLane (s.counted 9) l (((s.lane l).setHandle p.h none).waitingOn (.start p.order))) := by
  refine h.waits (KeepsLanes.counted s 9) ?_
  rw [State.takeOp_play op, State.takePlay_fails fails]
  exact State.playFailed_retries policy h.retry

/-- A PLAY block whose failure faults the lane (R62, R88). -/
theorem State.TakesNext.play_faults (h : s.TakesNext l k b) (op : b.op = .play p) (fails : s.orderFails p.order st)
    (policy : p.policy = .fault) :
    step s = .next (s.faultsAt (s.counted 9) l k ((s.lane l).setHandle p.h none) (faultOf st)) := by
  refine h.faults (KeepsLanes.counted s 9) (.setHandle ..) ?_
  rw [State.takeOp_play op, State.takePlay_fails fails]
  exact State.playFailed_faults policy st

end

section

variable {target : Fin 256} {n : Nat}

/-- A REPEAT that begins its loop toward an EMPTY slot (R67). -/
theorem State.TakesNext.repeat_begins (h : s.TakesNext l k b) (op : b.op = .repeatTo target n) (alone : (s.lane l).rep = none)
    (budget : (s.lane l).budget < 63) (empty : s.cues.get target = none) :
    step s = .next (s.withLane (s.noteBlock l k b) l (({ s.lane l with rep := some ⟨k, n⟩ } : Lane).starvedAt target)) :=
  h.goesTo (y := { s.lane l with rep := some ⟨k, n⟩ }) ((State.takeOp_repeat op).trans (State.takeRepeat_begins alone)) budget empty

section

variable {q : Repeat}

/-- A REPEAT whose own loop goes round again, toward an EMPTY slot (R67). -/
theorem State.TakesNext.repeat_again (h : s.TakesNext l k b) (op : b.op = .repeatTo target n) (looping : (s.lane l).rep = some q)
    (owner : q.owner = k) (budget : (s.lane l).budget < 63) (more : 1 < q.remaining) (empty : s.cues.get target = none) :
    step s = .next (s.withLane (s.noteBlock l k b) l
      (({ s.lane l with rep := some ⟨k, q.remaining - 1⟩ } : Lane).starvedAt target)) :=
  h.goesTo (y := { s.lane l with rep := some ⟨k, q.remaining - 1⟩ })
    ((State.takeOp_repeat op).trans (State.takeRepeat_again looping owner more)) budget empty

/-- A REPEAT whose own loop is done, toward an EMPTY link (R67). -/
theorem State.TakesNext.repeat_done (h : s.TakesNext l k b) (op : b.op = .repeatTo target n) (looping : (s.lane l).rep = some q)
    (owner : q.owner = k) (budget : (s.lane l).budget < 63) (done : q.remaining ≤ 1) (empty : s.cues.get b.link = none) :
    step s = .next (s.withLane (s.noteBlock l k b) l (({ s.lane l with rep := none } : Lane).starvedAt b.link)) :=
  h.goesTo (y := { s.lane l with rep := none })
    ((State.takeOp_repeat op).trans (State.takeRepeat_done looping owner done)) budget empty

/-- A REPEAT inside another block's loop (R67, R88). -/
theorem State.TakesNext.repeat_nested (h : s.TakesNext l k b) (op : b.op = .repeatTo target n) (looping : (s.lane l).rep = some q)
    (owner : q.owner ≠ k) : step s = .next (s.faultsAt s l k (s.lane l) .nestedRepeat) := by
  refine h.faults (.refl s) (.refl _) ?_
  rw [State.takeOp_repeat op, State.takeRepeat_nested looping owner, State.setLane_lane rfl]

end

end

section

variable {v : Half} {c : CueBlock}

theorem KeepsLanes.postMark (s : State) (l : Fin 4) (v : Half) (k : Fin 256) : KeepsLanes s (s.postMark l v k) :=
  (KeepsLanes.refl s).post ..

/-- A MARK block that completes (R68, R80, R81). -/
theorem State.TakesNext.mark (h : s.TakesNext l k b) (op : b.op = .mark v) :
    s.Ends (s.postMark l v k) l k b (s.lane l)
    ∧ ((s.lane l).budget = 63 →
      step s = .next (s.faultsAt (s.postMark l v k) l k { s.lane l with budget := 64 } .runaway)) := by
  have keeps := KeepsLanes.postMark s l v k
  have taken := State.takeOp_mark (s := s) (l := l) (k := k) op
  refine ⟨h.ends_same keeps taken, h.runaway keeps (.refl _) ?_⟩
  rw [State.setLane_lane (keeps.lane l)]
  exact taken

/-- The lane's context when it has gone on from its block to the link (R79). -/
def Lane.onTo (x : Lane) (link : Fin 256) : Lane := { x with slot := some link, budget := x.budget + 1 }

/-- From a MARK block the lane reaches the link's block (R68, R79). -/
theorem State.TakesNext.mark_goesOn (h : s.TakesNext l k b) (op : b.op = .mark v) (pause : b.pause = false) (last : b.last = false)
    (unpaused : (s.lane l).pauseRequested = false) (budget : (s.lane l).budget < 63) (next : s.cues.get b.link = some c) :
    step s = .next (State.runOn laneFuel (s.withLane ((s.postMark l v k).noteBlock l k b) l ((s.lane l).onTo b.link)) l) := by
  have keeps := KeepsLanes.postMark s l v k
  have onward : (({ s.lane l with budget := (s.lane l).budget + 1 } : Lane).runningAt b.link) = (s.lane l).onTo b.link := by
    unfold Lane.runningAt Lane.onTo
    rw [← h.running]
  rw [← onward]
  refine h.goesOn keeps ?_ budget pause last unpaused next
  rw [State.setLane_lane (keeps.lane l)]
  exact State.takeOp_mark op

theorem marked_cues_openings (s : State) (l : Fin 4) (v : Half) (k : Fin 256) (b : CueBlock) :
    ((s.postMark l v k).noteBlock l k b).cues = s.cues ∧ ((s.postMark l v k).noteBlock l k b).openings = s.openings :=
  ⟨((KeepsLanes.postMark s l v k).noteBlock l k b).cues, (State.openings_noteBlock ..).trans (State.openings_post ..)⟩

/-- After a MARK block another command is taken before the link's block (R79, log 6). -/
theorem State.TakesNext.mark_opened (h : s.TakesNext l k b) (op : b.op = .mark v) (pause : b.pause = false) (last : b.last = false)
    (unpaused : (s.lane l).pauseRequested = false) (budget : (s.lane l).budget < 63) (next : s.cues.get b.link = some c)
    (opened : s.openings.headD false = true) :
    step s = .next { s.withLane ((s.postMark l v k).noteBlock l k b) l ((s.lane l).onTo b.link) with
      openings := s.openings.tail } := by
  obtain ⟨cues, openings⟩ := marked_cues_openings s l v k b
  rw [h.mark_goesOn op pause last unpaused budget next, ← openings]
  exact congrArg _ (State.runOn_withLane_opened 199 h.running rfl (by rw [cues]; exact next) (by rw [openings]; exact opened))

/-- After a MARK block the lane takes a WAIT_TIME block (R64, R79, log 6). -/
theorem State.TakesNext.mark_waits (h : s.TakesNext l k b) (op : b.op = .mark v) (pause : b.pause = false) (last : b.last = false)
    (unpaused : (s.lane l).pauseRequested = false) (budget : (s.lane l).budget < 63) (next : s.cues.get b.link = some c)
    (closed : s.openings.headD false = false) {t : Nat} (wait : c.op = .waitTime t) :
    step s = .next (s.withLane { (s.postMark l v k).noteBlock l k b with openings := s.openings.tail } l
      (((s.lane l).onTo b.link).waitingOn (.time t))) := by
  obtain ⟨cues, openings⟩ := marked_cues_openings s l v k b
  rw [h.mark_goesOn op pause last unpaused budget next, ← openings]
  exact congrArg _ (State.runOn_withLane_waits 199 h.running rfl (by rw [cues]; exact next) (by rw [openings]; exact closed) wait)

end

end

/-! ### O26 -/

section

variable {s : State} {tag lane slot clear : Byte} {l : Fin 4} {b : CueBlock}

/-- LANE START at a MARK block from which the lane does not go on, in the words of the statement (R68, R80). -/
theorem exec_laneStart_mark_stops {v : Half} (hs : s.takesRequests) (hl : lane.toNat = l.val)
    (h : (s.lane l).state = .idle ∨ (s.lane l).state = .faulted) (hb : s.cues.get slot.toFin = some b) (op : b.op = .mark v)
    {r : NoticeReason} {y : Lane}
    (ends : (b.pause = true ∧ r = .pause ∧ y = startedLane (startHandles s l clear) .paused (some slot.toFin))
      ∨ (b.pause = false ∧ b.last = true ∧ r = .runEnd ∧ y = startedLane (startHandles s l clear) .idle none)) :
    let marked := s.post .mark l.val 0 0 (eventValue (v.extractLsb' 8 8) (v.extractLsb' 0 8) slot 0)
    let noted := if b.note then marked.post .cueDone l.val 0 0 (eventValue slot 0 0 0) else marked
    exec (.laneStart tag lane slot clear) s = .next (
      (if b.quiet = 0 then s.withLane (noted.post .laneIdle l.val 0 r.code (eventValue slot 0 1 0)) l y
      else s.withLane noted l { y with notice := some ⟨r, b.quiet * 8, slot.toFin⟩ }).replying tag 0xA8 .ok []) := by
  intro marked noted
  have slotByte : byte1 slot.toFin.val = slot := byte1_toNat slot
  have mark : s.postMark l v slot.toFin = marked := by rw [State.postMark_eq, slotByte]
  have note : marked.noteBlock l slot.toFin b = noted := by
    unfold State.noteBlock State.postCueDone
    rw [slotByte]
  have keeps : KeepsLanes s noted := by
    rw [← note, ← mark]
    exact (KeepsLanes.postMark s l v slot.toFin).noteBlock ..
  have origin : y.origin = some .link := by
    rcases ends with ⟨-, -, rfl⟩ | ⟨-, -, -, rfl⟩ <;> rfl
  rw [exec_laneStart_mark hs hl h hb op ends, mark, note, State.stopLane_eq, origin, slotByte, keeps.setLane,
    (keeps.post ..).setLane]
  rfl

end

/-- Settles O26: LANE START by the states a lane may be in and the block at its entry slot; and a RUNNING lane's next block, by
its op, where `State.Ends`, `State.stopsAt`, `State.faultsAt` and `State.withLane` are the statement's own forms. -/
theorem laneStartRunsTheLane : Obligations.LaneStartRunsTheLane := by
  unfold Obligations.LaneStartRunsTheLane
  refine ⟨fun tag lane slot clear s hs => ⟨fun bad => ?_, fun l hl => ⟨fun idle faulted => ?_, fun free empty => ?_⟩⟩,
    fun tag lane slot clear l b s hs hl free block => ⟨fun t op => ?_, fun c op => ?_, fun i d op held live => ?_,
      fun v op stops => ?_⟩,
    fun l k b s pending retry running lowest slot block => ?_⟩
  · exact State.request_badField hs (type := 0x28) (by decide) tag (onLane_bad bad _)
  · exact State.request_answers hs (type := 0x28) (t := s) (by decide) tag
      ((onLane_good hl _).trans (State.laneStartAt_busy (s := s.oweReply) idle faulted))
  · exact exec_laneStart_starves hs hl free empty
  · exact exec_laneStart_waits hs hl free block rfl (State.takeOp_waitTime op)
  · exact exec_laneStart_waits hs hl free block rfl (State.takeOp_waitCode op)
  · refine exec_laneStart_waits hs hl free block rfl (State.takeOp_waitVoice op ?_ live)
    rw [State.lane, State.setLane, Table.get_set_self]
    exact held
  · cases pause : b.pause with
    | true => exact exec_laneStart_mark_stops hs hl free block op (.inl ⟨pause, rfl, rfl⟩)
    | false =>
      have last : b.last = true := by simpa [pause] using stops
      exact exec_laneStart_mark_stops hs hl free block op (.inr ⟨pause, last, rfl, rfl⟩)
  have h : s.TakesNext l k b := ⟨pending, retry, running, lowest, slot, block⟩
  refine ⟨fun p op => ⟨fun r v record sectors group idle lowestVoice => ?_, fun d u started => ?_, fun st fails =>
      ⟨fun policy => ?_, fun policy voices => ?_, fun policy => ?_⟩⟩,
    fun i => ⟨fun q op => ?_, fun op => ?_, fun op => ?_, fun op empty => ?_, fun d op held stale => ?_⟩,
    fun target n op => ⟨fun alone budget empty => ?_, fun q looping owner budget => ⟨fun more empty => ?_, fun done empty => ?_⟩,
      fun q looping owner => ?_⟩,
    fun v op => and_assoc.1 ⟨?_, fun c goesOn next => ⟨fun opened => ?_, fun t closed wait => ?_⟩⟩⟩
  · exact (h.play_started op (.inl (State.takeOrder_binds record sectors group idle lowestVoice l))).1
  · exact h.play_started op started
  · exact h.play_skips op fails policy
  · subst voices
    exact h.play_retries op fails policy
  · refine (h.play_faults op fails policy).trans ?_
    cases st <;> rfl
  · exact h.ends_onHandle (State.takeOp_ramp op) fun _ => .of_apart (Moves.opRamp ..) (Apart.opRamp ..)
  · exact h.ends_onHandle (State.takeOp_release op) fun _ => .of_apart (Moves.opRelease ..) (Apart.opRelease ..)
  · exact h.ends_onHandle (State.takeOp_stop op) fun _ => .of_apart (Moves.opStop ..) (Apart.opStop ..)
  · exact h.ends_same (.refl s) (State.takeOp_waitVoice_empty op empty)
  · exact h.ends_same (.refl s) (State.takeOp_waitVoice_stale op held stale)
  · exact h.repeat_begins op alone budget empty
  · exact h.repeat_again op looping owner budget more empty
  · exact h.repeat_done op looping owner budget done empty
  · exact h.repeat_nested op looping owner
  · have mark := h.mark op
    rw [State.postMark_eq] at mark
    exact mark
  · obtain ⟨pause, last, unpaused, budget⟩ := goesOn
    have mark := h.mark_opened op pause last unpaused budget next opened
    rw [State.postMark_eq] at mark
    exact mark
  · obtain ⟨pause, last, unpaused, budget⟩ := goesOn
    have mark := h.mark_waits op pause last unpaused budget next closed wait
    rw [State.postMark_eq] at mark
    exact mark

end Sys2Proof.Machine
end

section
/-! PROOFS. The lanes' law: what a turn of one lane makes of that lane and leaves of the others (R74 to R94). -/

namespace Sys2Proof.Machine

/-! ### The law by the state of the lane (R75, R88, R91, R94) -/

/-- What a lane that goes on from a block does not hold, and the run budget it has left (R78 to R81). -/
structure Lane.GoesOn (x : Lane) : Prop where
  wait : x.wait = none
  notice : x.notice = none
  fault : x.fault = none
  budget : x.budget ≤ 63

section

variable {x : Lane}

theorem Lane.lawful_running (h : x.state = .running) : x.lawful = true ↔ x.GoesOn ∧ x.slot.isSome = true := by
  unfold Lane.lawful
  rw [h]
  simp only [Bool.and_eq_true, decide_eq_true_eq, Option.isNone_iff_eq_none]
  constructor
  · rintro ⟨-, ⟨⟨⟨slot, wait⟩, notice⟩, fault⟩, budget⟩
    exact ⟨⟨wait, notice, fault, budget⟩, slot⟩
  · rintro ⟨⟨wait, notice, fault, budget⟩, slot⟩
    exact ⟨by omega, ⟨⟨⟨slot, wait⟩, notice⟩, fault⟩, budget⟩

theorem Lane.lawful_waiting (h : x.state = .waiting) : x.lawful = true ↔
    x.slot.isSome = true ∧ x.wait.isSome = true ∧ x.notice = none ∧ x.fault = none ∧ x.budget = 0 := by
  unfold Lane.lawful
  rw [h]
  simp only [Bool.and_eq_true, decide_eq_true_eq, Option.isNone_iff_eq_none, and_assoc]
  exact and_iff_right_of_imp fun ⟨_, _, _, _, budget⟩ => by omega

theorem Lane.lawful_starved (h : x.state = .starved) : x.lawful = true ↔
    x.slot.isSome = true ∧ x.wait = none ∧ x.notice = none ∧ x.fault = none ∧ x.budget = 0 := by
  unfold Lane.lawful
  rw [h]
  simp only [Bool.and_eq_true, decide_eq_true_eq, Option.isNone_iff_eq_none, and_assoc]
  exact and_iff_right_of_imp fun ⟨_, _, _, _, budget⟩ => by omega

theorem Lane.lawful_paused (h : x.state = .paused) : x.lawful = true ↔
    x.slot.isSome = true ∧ x.wait = none ∧ x.fault = none ∧ x.pauseRequested = false ∧ x.budget = 0 := by
  unfold Lane.lawful
  rw [h]
  simp only [Bool.and_eq_true, decide_eq_true_eq, Option.isNone_iff_eq_none, Bool.not_eq_true', and_assoc]
  exact and_iff_right_of_imp fun ⟨_, _, _, _, budget⟩ => by omega

/-- Only a WAITING lane is in a wait (R75). -/
theorem Lane.waiting_of_wait (law : x.lawful = true) (h : x.wait.isSome = true) : x.state = .waiting := by
  unfold Lane.lawful at law
  cases hs : x.state <;> simp_all

/-- Only an IDLE or a PAUSED lane holds a notice (R91). -/
theorem Lane.idle_or_paused_of_notice (law : x.lawful = true) (h : x.notice.isSome = true) :
    x.state = .idle ∨ x.state = .paused := by
  unfold Lane.lawful at law
  cases hs : x.state <;> simp_all

/-- The law of an IDLE or PAUSED lane leaves its notice open (R91). -/
theorem Lane.lawful_notice (h : x.state = .idle ∨ x.state = .paused) (n : Option Notice) :
    ({ x with notice := n } : Lane).lawful = x.lawful := by
  unfold Lane.lawful
  rcases h with h | h <;> rw [h]

/-- A lane whose wait ends goes on (R82). -/
theorem Lane.goesOn_of_wait (law : x.lawful = true) (h : x.wait.isSome = true) :
    ({ x with state := .running, wait := none } : Lane).GoesOn := by
  obtain ⟨-, -, notice, fault, budget⟩ := (Lane.lawful_waiting (Lane.waiting_of_wait law h)).1 law
  exact ⟨rfl, notice, fault, by dsimp only; omega⟩

theorem Lane.goesOn_prepared (x : Lane) (clear : Bool) (o : Origin) : (x.prepared clear o).GoesOn :=
  ⟨rfl, rfl, rfl, Nat.zero_le _⟩

theorem Lane.GoesOn.starvedAt (h : x.GoesOn) (k : Fin 256) : (x.starvedAt k).lawful = true :=
  (Lane.lawful_starved rfl).2 ⟨rfl, h.wait, h.notice, h.fault, rfl⟩

theorem Lane.GoesOn.runningAt (h : x.GoesOn) (k : Fin 256) : (x.runningAt k).lawful = true :=
  (Lane.lawful_running rfl).2 ⟨⟨h.wait, h.notice, h.fault, h.budget⟩, rfl⟩

theorem Lane.GoesOn.pausedAt (h : x.GoesOn) (k : Fin 256) : (x.pausedAt k).lawful = true :=
  (Lane.lawful_paused rfl).2 ⟨rfl, rfl, h.fault, rfl, rfl⟩

theorem Lane.GoesOn.waitingOn (h : x.GoesOn) (slot : x.slot.isSome = true) (w : Wait) : (x.waitingOn w).lawful = true :=
  (Lane.lawful_waiting rfl).2 ⟨slot, rfl, h.notice, h.fault, rfl⟩

theorem Lane.lawful_idled (x : Lane) : x.idled.lawful = true := rfl

/-- A lane that faults (R88). -/
theorem Lane.lawful_faulted (notice : x.notice = none) (budget : x.budget ≤ 64) (k : Fin 256) (f : LaneFault) :
    ({ x with state := .faulted, slot := some k, fault := some (f, k), wait := none, rep := none, pendingStart := none
              pauseRequested := false } : Lane).lawful = true := by
  simp [Lane.lawful, notice, budget]

end

/-! ### A turn of a lane -/

theorem State.lanes_postStartFail (s : State) (l : Fin 4) (st : Status) (k : Fin 256) :
    (s.postStartFail l st k).lanes = s.lanes := State.lanes_post ..

theorem State.lane_postStartFail (s : State) (l : Fin 4) (st : Status) (k : Fin 256) (j : Fin 4) :
    (s.postStartFail l st k).lane j = s.lane j := State.lane_post ..

/-- The lanes but one are as they were. -/
def OnlyLane (l : Fin 4) (s t : State) : Prop := ∀ j, l ≠ j → t.lane j = s.lane j

theorem OnlyLane.of_lanes {s t : State} (h : t.lanes = s.lanes) (l : Fin 4) : OnlyLane l s t := fun j _ => by
  unfold State.lane
  rw [h]

theorem OnlyLane.setLane (s : State) (l : Fin 4) (x : Lane) : OnlyLane l s (s.setLane l x) := fun j hj => by
  rw [State.lane_setLane, if_neg hj]

theorem OnlyLane.trans {l : Fin 4} {s t u : State} (h : OnlyLane l s t) (k : OnlyLane l t u) : OnlyLane l s u := fun j hj =>
  (k j hj).trans (h j hj)

/-- A lane has had a turn: it is within the law, and the other lanes are as they were. -/
structure LaneTurn (l : Fin 4) (s t : State) : Prop where
  lawful : (t.lane l).lawful = true
  others : OnlyLane l s t

namespace LaneTurn

variable {l : Fin 4} {s t u : State}

theorem refl (law : (s.lane l).lawful = true) : LaneTurn l s s := ⟨law, fun _ _ => rfl⟩

/-- What went before touched no other lane either. -/
theorem after (h : OnlyLane l s t) (turn : LaneTurn l t u) : LaneTurn l s u := ⟨turn.lawful, h.trans turn.others⟩

theorem same (turn : LaneTurn l s t) (h : u.lanes = t.lanes) : LaneTurn l s u where
  lawful := by unfold State.lane; rw [h]; exact turn.lawful
  others := turn.others.trans (.of_lanes h l)

theorem setLane {x : Lane} (h : x.lawful = true) : LaneTurn l s (s.setLane l x) where
  lawful := by rw [State.lane_setLane, if_pos rfl]; exact h
  others := .setLane _ _ _

/-! ### Faults, notices and starts (R76, R78, R88, R91) -/

theorem faultLane (notice : (s.lane l).notice = none) (budget : (s.lane l).budget ≤ 64) (k : Fin 256) (f : LaneFault) :
    LaneTurn l s (s.faultLane l k f) :=
  (setLane (Lane.lawful_faulted notice budget k f)).same (State.lanes_post ..)

theorem stopLane {y : Lane} (stops : y.state = .idle ∨ y.state = .paused) (h : y.lawful = true) (r : NoticeReason) (k : Fin 256)
    (quiet : Nat) : LaneTurn l s (s.stopLane l r k quiet y) := by
  rw [State.stopLane_eq]
  split
  · exact after (.of_lanes (State.lanes_post ..) l) (setLane h)
  · exact setLane ((Lane.lawful_notice stops _).trans h)

theorem postNotice (law : (s.lane l).lawful = true) : LaneTurn l s (s.postNotice l) := by
  unfold State.postNotice
  split
  · exact refl law
  · next n e =>
    have stops := Lane.idle_or_paused_of_notice law (by rw [e]; rfl)
    exact after (.of_lanes (State.lanes_post ..) l)
      (setLane ((Lane.lawful_notice stops none).trans law))

theorem fetch (h : (s.lane l).GoesOn) (k : Fin 256) : LaneTurn l s (s.fetch l k) := by
  cases hk : s.cues.get k with
  | none => rw [State.fetch_empty hk]; exact setLane (h.starvedAt k)
  | some b => rw [State.fetch_block hk]; exact setLane (h.runningAt k)

theorem beginRun (s : State) (l : Fin 4) (k : Fin 256) (clear : Bool) (o : Origin) : LaneTurn l s (s.beginRun l k clear o) := by
  have lane : (s.setLane l ((s.lane l).prepared clear o)).lane l = (s.lane l).prepared clear o := Table.get_set_self ..
  exact after (.setLane s l ((s.lane l).prepared clear o)) (fetch (by rw [lane]; exact Lane.goesOn_prepared ..) k)

/-! ### Completing a block (R80) -/

theorem endRun (s : State) (l : Fin 4) (k : Fin 256) (quiet : Nat) : LaneTurn l s (s.endRun l k quiet) := by
  have idle : LaneTurn l s (s.stopLane l .runEnd k quiet (s.lane l).idled) := stopLane (.inl rfl) (Lane.lawful_idled _) ..
  unfold State.endRun
  dsimp only
  split
  · exact idle
  · exact after idle.others (beginRun ..)

theorem finishBlock {x : Lane} (h : x.GoesOn) (k : Fin 256) (b : CueBlock) (next : Option (Fin 256)) :
    LaneTurn l s ((s.setLane l x).finishBlock l k b next) := by
  have noted : OnlyLane l s ((s.noteBlock l k b).setLane l x) := .trans (.of_lanes (State.lanes_noteBlock ..) l) (.setLane _ _ _)
  have lane : ((s.noteBlock l k b).setLane l x).lane l = x := Table.get_set_self ..
  have goesOn : (((s.noteBlock l k b).setLane l x).lane l).GoesOn := by rw [lane]; exact h
  cases next with
  | some n => rw [State.finishBlock_some]; exact after noted (fetch goesOn n)
  | none =>
    rw [State.finishBlock_none]
    split
    · exact after noted (stopLane (.inr rfl) (goesOn.pausedAt k) ..)
    · split
      · exact after noted (endRun ..)
      · exact after noted (fetch goesOn _)

theorem completeAtOnce (h : (s.lane l).GoesOn) (k : Fin 256) (b : CueBlock) (next : Option (Fin 256)) :
    LaneTurn l s (s.completeAtOnce l k b next) := by
  have counted : (s.setLane l { s.lane l with budget := (s.lane l).budget + 1 }).lane l
      = { s.lane l with budget := (s.lane l).budget + 1 } := Table.get_set_self ..
  unfold State.completeAtOnce
  dsimp only
  split
  · exact after (.setLane _ _ _) (faultLane (by rw [counted]; exact h.notice) (by rw [counted]; exact Nat.succ_le_succ h.budget) ..)
  · next more =>
    refine finishBlock ?_ k b next
    exact ⟨h.wait, h.notice, h.fault, show (s.lane l).budget + 1 ≤ 63 by rw [Config.runBudget] at more; omega⟩

/-! ### Takes a block (R61 to R68) -/

/-- What taking a block makes of the lane: a lane that stands is within the law, and one whose block completes is RUNNING within
it. -/
structure Takes (l : Fin 4) (s : State) (p : Taken × State) : Prop where
  turn : LaneTurn l s p.2
  runs : p.1 = .stands ∨ (p.2.lane l).state = .running

theorem Takes.stands (turn : LaneTurn l s t) : Takes l s (.stands, t) := ⟨turn, .inl rfl⟩

theorem Takes.completes (turn : LaneTurn l s t) (runs : (t.lane l).state = .running) (next : Option (Fin 256)) :
    Takes l s (.completes next, t) := ⟨turn, .inr runs⟩

section

variable (law : (s.lane l).lawful = true) (running : (s.lane l).state = .running)

include law running

/-- The block completes and the lane is as it was. -/
theorem Takes.kept (h : t.lanes = s.lanes) (next : Option (Fin 256)) : Takes l s (.completes next, t) :=
  .completes ((refl law).same h) (by unfold State.lane; rw [h]; exact running) next

/-- The block completes and has set a handle slot or the repeat of the lane. -/
theorem Takes.set {x : Lane} (h : x.state = .running) (goesOn : x.GoesOn) (slot : x.slot = (s.lane l).slot) (lanes : u.lanes = s.lanes)
    (next : Option (Fin 256)) : Takes l s (.completes next, u.setLane l x) := by
  have lane : (u.setLane l x).lane l = x := Table.get_set_self ..
  refine .completes (after (.of_lanes lanes l) (setLane ((Lane.lawful_running h).2 ⟨goesOn, ?_⟩))) (by rw [lane]; exact h) next
  rw [slot]
  exact ((Lane.lawful_running running).1 law).2

theorem Takes.waits (w : Wait) : LaneTurn l s (s.setLane l ((s.lane l).waitingOn w)) :=
  let ⟨goesOn, slot⟩ := (Lane.lawful_running running).1 law
  setLane (goesOn.waitingOn slot w)

theorem Takes.playFailed (k : Fin 256) (p : PlayOperands) (st : Status) : Takes l s (s.playFailed l k p st) := by
  obtain ⟨goesOn, slot⟩ := (Lane.lawful_running running).1 law
  have cleared : LaneTurn l s (s.setLane l ((s.lane l).setHandle p.h none)) := setLane law
  have lane : (s.setLane l ((s.lane l).setHandle p.h none)).lane l = (s.lane l).setHandle p.h none := Table.get_set_self ..
  have skips : Takes l s (.completes none, (s.setLane l ((s.lane l).setHandle p.h none)).postStartFail l st k) :=
    .completes (cleared.same (State.lanes_postStartFail ..)) (by rw [State.lane_postStartFail, lane]; exact running) none
  unfold State.playFailed
  dsimp only
  split
  · exact skips
  · split
    · exact .stands (after cleared.others ((Takes.waits cleared.lawful (by rw [lane]; exact running) _).same rfl))
    · exact skips
  · exact .stands (after cleared.others (faultLane (by rw [lane]; exact goesOn.notice)
      (by rw [lane]; exact Nat.le_succ_of_le goesOn.budget) ..))

theorem Takes.takePlay (k : Fin 256) (p : PlayOperands) : Takes l s (s.takePlay l k p) := by
  have order := Apart.takeOrder s p.order (.lane l)
  obtain ⟨goesOn, -⟩ := (Lane.lawful_running running).1 law
  have handled {u : State} (h : Apart s u) (d : Handle) :
      Takes l s (.completes none, u.setLane l ((u.lane l).setHandle p.h (some d))) := by
    rw [h.lane]
    exact Takes.set law running (x := (s.lane l).setHandle p.h (some d)) running
      ⟨goesOn.wait, goesOn.notice, goesOn.fault, goesOn.budget⟩ rfl h.lanes none
  unfold State.takePlay
  split
  · next e => rw [e] at order; exact handled order _
  · next e => rw [e] at order; exact handled order _
  · next u e =>
    rw [e] at order
    have failed := Takes.playFailed (s := u) (by rw [order.lane]; exact law) (by rw [order.lane]; exact running) k p
    exact ⟨after (.of_lanes order.lanes l) (failed _).turn, (failed _).runs⟩
  · next e => rw [e] at order; exact .kept law running order.lanes none

theorem Takes.onHandle (h : Fin 4) {f : State → Handle → Status × State} (apart : ∀ s x, Apart s (f s x).2) :
    Takes l s (.completes none, s.onHandle l h f) := by
  refine .kept law running ?_ none
  unfold State.onHandle
  split
  · rfl
  · exact (apart ..).lanes

theorem Takes.takeRepeat (k target link : Fin 256) (count : Nat) : Takes l s (s.takeRepeat l k target link count) := by
  obtain ⟨goesOn, -⟩ := (Lane.lawful_running running).1 law
  have looped (r : Option Repeat) (next : Option (Fin 256)) :
      Takes l s (.completes next, s.setLane l { s.lane l with rep := r }) :=
    Takes.set law running (x := { s.lane l with rep := r }) running
      ⟨goesOn.wait, goesOn.notice, goesOn.fault, goesOn.budget⟩ rfl rfl next
  unfold State.takeRepeat
  dsimp only
  split
  · exact looped ..
  · split
    · exact .stands (faultLane goesOn.notice (Nat.le_succ_of_le goesOn.budget) ..)
    · split
      · exact looped ..
      · exact looped ..

/-- A block's op taken by a RUNNING lane (R79). -/
theorem Takes.takeOp (k : Fin 256) (b : CueBlock) : Takes l s (s.takeOp l k b) := by
  unfold State.takeOp
  split
  · exact .takePlay law running ..
  · exact .onHandle law running _ fun s x => Apart.opRamp s x _
  · exact .onHandle law running _ Apart.opRelease
  · exact .onHandle law running _ Apart.opStop
  · exact .stands (waits law running _)
  · unfold State.takeWaitVoice
    split
    · exact .kept law running rfl none
    · split
      · exact .kept law running rfl none
      · exact .stands (waits law running _)
  · exact .stands (waits law running _)
  · exact .takeRepeat law running ..
  · exact .kept law running (State.lanes_post ..) none

/-- A block taken and, where it completes at once, completed (R79, R80). -/
theorem takeBlock (k : Fin 256) (b : CueBlock) : LaneTurn l s (s.takeBlock l k b) := by
  obtain ⟨turn, runs⟩ := Takes.takeOp law running k b
  unfold State.takeBlock
  split
  · next e =>
    rw [e] at turn runs
    have runs := runs.resolve_left Taken.noConfusion
    exact after turn.others (completeAtOnce ((Lane.lawful_running runs).1 turn.lawful).1 ..)
  · next e => rw [e] at turn; exact turn

end

/-! ### Running on (R79) -/

theorem takeNext (law : (s.lane l).lawful = true) : LaneTurn l s (s.takeNext l) := by
  unfold State.takeNext State.runningBlock
  by_cases running : (s.lane l).state = .running
  · rw [if_pos running]
    split
    · exact refl law
    · exact takeBlock law running ..
  · rw [if_neg running]
    exact refl law

theorem runOn (fuel : Nat) (law : (s.lane l).lawful = true) : LaneTurn l s (State.runOn fuel s l) := by
  induction fuel generalizing s with
  | zero => exact refl law
  | succ fuel ih =>
    have opened : LaneTurn l s s.opening.2 := (refl law).same rfl
    have taken := takeNext opened.lawful
    unfold State.runOn
    split
    · exact refl law
    · split
      · exact opened
      · exact after (opened.others.trans taken.others) (ih taken.lawful)

theorem settle (fuel : Nat) (law : (s.lane l).lawful = true) : LaneTurn l s (State.settle fuel s l) := by
  induction fuel generalizing s with
  | zero => exact refl law
  | succ fuel ih =>
    have taken := takeNext law
    unfold State.settle
    split
    · exact refl law
    · exact after taken.others (ih taken.lawful)

theorem runLane (law : (s.lane l).lawful = true) : LaneTurn l s (s.runLane l) :=
  have taken := takeNext law
  after taken.others (runOn laneFuel taken.lawful)

/-- A start of a lane, whatever it was (R76). -/
theorem startLane (s : State) (l : Fin 4) (k : Fin 256) (clear : Bool) (o : Origin) : LaneTurn l s (s.startLane l k clear o) :=
  have begun := beginRun s l k clear o
  after begun.others (runLane begun.lawful)

/-! ### Waits, pause, resume and abort (R82 to R89, R93) -/

section

variable (law : (s.lane l).lawful = true)

include law

theorem endWait (waits : (s.lane l).wait.isSome = true) : LaneTurn l s (s.endWait l) := by
  unfold State.endWait
  split
  · exact refl law
  · exact finishBlock (Lane.goesOn_of_wait law waits) ..

theorem wakeLane (waits : (s.lane l).wait.isSome = true) : LaneTurn l s (s.wakeLane l) :=
  have ended := endWait law waits
  after ended.others (runOn laneFuel ended.lawful)

/-- A tick of a lane (R83, R91). -/
theorem tickLane : LaneTurn l s (s.tickLane l) := by
  unfold State.tickLane
  dsimp only
  split
  · next e =>
    have waits : (s.lane l).wait.isSome = true := by rw [e]; rfl
    have waiting := Lane.waiting_of_wait law waits
    obtain ⟨slot, -, notice, fault, budget⟩ := (Lane.lawful_waiting waiting).1 law
    split
    · exact endWait law waits
    · exact setLane ((Lane.lawful_waiting (by exact waiting)).2 ⟨slot, rfl, notice, fault, budget⟩)
  · split
    · exact refl law
    · next e =>
      have stops := Lane.idle_or_paused_of_notice law (by rw [e]; rfl)
      split
      · exact postNotice law
      · exact setLane ((Lane.lawful_notice stops _).trans law)

/-- A pause requested of a lane that is not PAUSED, IDLE or FAULTED (R86). -/
theorem requestPause (h : (s.lane l).state = .running ∨ (s.lane l).state = .waiting ∨ (s.lane l).state = .starved) :
    LaneTurn l s (s.setLane l { s.lane l with pauseRequested := true }) := by
  refine setLane ?_
  rcases h with h | h | h
  · obtain ⟨⟨wait, notice, fault, budget⟩, slot⟩ := (Lane.lawful_running h).1 law
    exact (Lane.lawful_running (by exact h)).2 ⟨⟨wait, notice, fault, budget⟩, slot⟩
  · exact (Lane.lawful_waiting (by exact h)).2 ((Lane.lawful_waiting h).1 law)
  · exact (Lane.lawful_starved (by exact h)).2 ((Lane.lawful_starved h).1 law)

/-- LANE PAUSE (R86). -/
theorem pauseRequest : LaneTurn l s (s.pauseRequest l).2 := by
  unfold State.pauseRequest
  dsimp only
  split
  · next h => exact requestPause law (.inl h)
  · next h => exact requestPause law (.inr (.inr h))
  · next h =>
    have requested := requestPause law (.inr (.inl h))
    split
    · unfold State.giveUpStart
      split
      · exact requested
      · next k _ =>
        have posted := requested.same (State.lanes_postStartFail _ l .noVoice k)
        refine after posted.others (wakeLane posted.lawful ?_)
        rw [State.lane_postStartFail, State.lane_setLane, if_pos rfl]
        exact ((Lane.lawful_waiting h).1 law).2.1
    · exact requested
  · exact refl law
  · exact refl law
  · exact refl law

/-- LANE RESUME (R87). -/
theorem resumeLane : LaneTurn l s (s.resumeLane l).2 := by
  unfold State.resumeLane
  split
  · next h =>
    obtain ⟨slot, wait, fault, pause, -⟩ := (Lane.lawful_paused h).1 law
    have resumed : LaneTurn l s (s.setLane l { s.lane l with notice := none, budget := 0 }) :=
      setLane ((Lane.lawful_paused (by exact h)).2 ⟨slot, wait, fault, pause, rfl⟩)
    dsimp only
    split
    · exact resumed
    · next k b _ =>
      have goesOn : ((s.setLane l { s.lane l with notice := none, budget := 0 }).lane l).GoesOn := by
        rw [State.lane_setLane, if_pos rfl]
        exact ⟨wait, rfl, fault, Nat.zero_le _⟩
      have gone : LaneTurn l s (if b.last = true then (s.setLane l { s.lane l with notice := none, budget := 0 }).endRun l k 0
          else (s.setLane l { s.lane l with notice := none, budget := 0 }).fetch l b.link) := by
        split
        · exact after resumed.others (endRun ..)
        · exact after resumed.others (fetch goesOn _)
      exact after gone.others (runLane gone.lawful)
  · exact refl law

end

end LaneTurn

end Sys2Proof.Machine
end

section
/-! PROOFS. The lanes' law in every lane: the events that more than one lane takes, the retries, and the voices, which touch no lane
(R53, R70, R83 to R85, R92, R93, R105). -/

namespace Sys2Proof.Machine

/-! ### The frame work of a voice touches no lane (R3) -/

namespace Apart

theorem contribution (s : State) (v : Fin 16) (c : Int × Int) : Apart s (s.setContribution v c) := ⟨rfl, rfl, rfl⟩

theorem completeCut (s : State) (v : Fin 16) (y : Sounding) (c : Cut) (z : Option Successor) : Apart s (s.completeCut v y c z) := by
  unfold State.completeCut
  refine (endStart s v y c.generation c.reason.endReason).trans ?_
  dsimp only
  split
  · exact free ..
  · split
    · exact free ..
    · exact body ..

theorem advanceRamp (s : State) (v : Fin 16) (x : Sounding) (b : Sounding → VoiceBody) (releasing : Bool) :
    Apart s (s.advanceRamp v x b releasing) := by
  unfold State.advanceRamp
  split
  · exact body ..
  · next p _ =>
    split
    · exact body ..
    · next level _ =>
      have arrived : Apart s (s.rampArrives v x p level) := ifPost s _ ..
      refine arrived.trans ((body _ v (b { x with level, ramp := none })).trans ?_)
      dsimp only
      split
      · exact endFree ..
      · exact refl _

/-- The frame work of a voice (R2, R3, R11). -/
theorem voiceFrame (s : State) (v : Fin 16) : Apart s (s.voiceFrame v) := by
  have sounds (x : Sounding) (b : Sounding → VoiceBody) (releasing : Bool) : Apart s (s.soundingFrame v x b releasing) := by
    unfold State.soundingFrame
    split
    · exact contribution ..
    · next r _ =>
      refine (contribution s v (soundingContribution s.mem r x)).trans ?_
      dsimp only
      split
      · exact endFree ..
      · exact advanceRamp ..
  have cuts (x : Sounding) (c : Cut) (z : Option Successor) : Apart s (s.cutFrame v x c z) := by
    unfold State.cutFrame
    split
    · exact contribution ..
    · next r _ =>
      dsimp only
      refine (contribution s v (cutScaled (soundingContribution s.mem r x).1 c.framesLeft,
        cutScaled (soundingContribution s.mem r x).2 c.framesLeft)).trans ?_
      split
      · exact completeCut ..
      · split
        · exact completeCut ..
        · exact body ..
  unfold State.voiceFrame
  split
  · exact contribution ..
  · exact contribution ..
  · exact sounds ..
  · exact sounds ..
  · exact cuts ..

/-- The frame work of the voices in turn (R3). -/
theorem voicesThrough (s : State) (last : Nat) : Apart s (s.voicesThrough last) := by
  rw [State.voicesThrough_eq]
  exact List.foldlRecOn _ _ (refl s) fun t h v _ => h.trans (voiceFrame t v)

end Apart

/-! ### The law in every lane -/

theorem LaneTurn.lanesLawful {l : Fin 4} {s t : State} (turn : LaneTurn l s t) (law : s.lanesLawful) : t.lanesLawful := fun j => by
  by_cases h : l = j
  · rw [← h]; exact turn.lawful
  · rw [turn.others j h]; exact law j

namespace State.lanesLawful

variable {s t : State}

/-- The law speaks of the lanes alone. -/
theorem same (law : s.lanesLawful) (h : t.lanes = s.lanes) : t.lanesLawful := fun l => by
  unfold State.lane
  rw [h]
  exact law l

/-- The lanes that one event wakes are in waits, each once (R83). -/
theorem wakeInTurn {ls : List (Fin 4)} (distinct : ls.Nodup) (law : s.lanesLawful)
    (waits : ∀ l ∈ ls, (s.lane l).wait.isSome = true) : (s.wakeInTurn ls).lanesLawful := by
  induction ls generalizing s with
  | nil => exact law
  | cons l ls ih =>
    have waiting := waits l List.mem_cons_self
    cases ls with
    | nil => exact (LaneTurn.wakeLane (law l) waiting).lanesLawful law
    | cons j ls =>
      obtain ⟨fresh, distinct⟩ := List.nodup_cons.1 distinct
      have ended := LaneTurn.endWait (law l) waiting
      have settled := LaneTurn.after ended.others (LaneTurn.settle laneFuel ended.lawful)
      refine ih distinct (settled.lanesLawful law) fun k hk => ?_
      rw [settled.others k fun e => fresh (e ▸ hk)]
      exact waits k (List.mem_cons_of_mem l hk)

/-- The lanes that wait on one code or on one handle. -/
theorem wakeAll {p : Fin 4 → Bool} (law : s.lanesLawful) (waits : ∀ l, p l = true → (s.lane l).wait.isSome = true) :
    (s.wakeInTurn (allLanes.filter p)).lanesLawful :=
  law.wakeInTurn ((by decide : allLanes.Nodup).filter p) fun l hl => waits l (List.mem_filter.1 hl).2

theorem reportCode (law : s.lanesLawful) (c : Code) : (s.reportCode c).2.lanesLawful :=
  law.wakeAll fun l h => by rw [of_decide_eq_true h]; rfl

theorem nextSignal (law : s.lanesLawful) : s.nextSignal.lanesLawful := by
  unfold State.nextSignal
  split
  · exact law
  · exact wakeAll (law.same rfl) fun l h => by rw [of_decide_eq_true h]; rfl

theorem tickInTurn (law : s.lanesLawful) (ls : List (Fin 4)) : (s.tickInTurn ls).lanesLawful := by
  induction ls generalizing s with
  | nil => exact law
  | cons l ls ih =>
    have ticked := LaneTurn.tickLane (law l)
    cases ls with
    | nil =>
      unfold State.tickInTurn
      split
      · exact (LaneTurn.after ticked.others (LaneTurn.runOn laneFuel ticked.lawful)).lanesLawful law
      · exact ticked.lanesLawful law
    | cons j ls =>
      unfold State.tickInTurn
      split
      · exact ih ((LaneTurn.after ticked.others (LaneTurn.settle laneFuel ticked.lawful)).lanesLawful law)
      · exact ih (ticked.lanesLawful law)

/-- The lanes' share of a tick (R83, R91). -/
theorem lanesThrough (law : s.lanesLawful) (last : Nat) : (s.lanesThrough last).lanesLawful := by
  have settled : s.settleTicked.lanesLawful := by
    unfold State.settleTicked
    split
    · exact law
    · exact (LaneTurn.settle laneFuel (law _)).lanesLawful law
  unfold State.lanesThrough
  split
  · exact law
  · exact settled.tickInTurn _

/-! ### Retries (R53, R54, R85) -/

theorem startWait_isSome {x : Lane} (h : x.startWait.isSome = true) : x.wait.isSome = true := by
  obtain ⟨o, ho⟩ := Option.isSome_iff_exists.1 h
  rw [(Lane.startWait_iff.1 ho).2]
  rfl

theorem retrySucceeded {l : Fin 4} (law : s.lanesLawful) (waits : (s.lane l).wait.isSome = true) (h : Handle) :
    (s.retrySucceeded l h).lanesLawful := by
  unfold State.retrySucceeded
  dsimp only
  split
  · exact (LaneTurn.wakeLane (law l) waits).lanesLawful law
  · next i _ =>
    have stored : LaneTurn l s (s.setLane l ((s.lane l).setHandle i (some h))) := .setLane (law l)
    refine (LaneTurn.wakeLane stored.lawful ?_).lanesLawful (stored.lanesLawful law)
    rw [State.lane_setLane, if_pos rfl]
    exact waits

theorem answerRetry (law : s.lanesLawful) (r : Retry) : (s.answerRetry r).lanesLawful := by
  have order := Apart.tryOrder (s.setRetry none) r.order (.lane r.lane)
  have reached {t : State} (h : t.lanes = s.lanes) (d : Handle) :
      (if s.stillWaits r = true then t.retrySucceeded r.lane d else t).lanesLawful := by
    split
    · next waits =>
      refine (law.same h).retrySucceeded ?_ d
      unfold State.lane
      rw [h]
      exact startWait_isSome (Bool.and_eq_true_iff.1 waits).2
    · exact law.same h
  unfold State.answerRetry
  split
  · next e => rw [e] at order; exact reached order.lanes _
  · next e => rw [e] at order; exact reached order.lanes _
  · next e => rw [e] at order; exact law.same order.lanes
  · next e => rw [e] at order; exact law.same order.lanes

/-- Acts in turn, each of which keeps the law. -/
theorem foldl {α : Type} {f : State → α → State} (keeps : ∀ t a, t.lanesLawful → (f t a).lanesLawful) (law : s.lanesLawful)
    (as : List α) : (as.foldl f s).lanesLawful := by
  induction as generalizing s with
  | nil => exact law
  | cons a as ih => exact ih (keeps s a law)

theorem retryAt (law : s.lanesLawful) (l : Fin 4) : (s.retryAt l).lanesLawful := by
  have opened : s.opening.2.lanesLawful := law.same rfl
  unfold State.retryAt State.askRetry
  split
  · exact law
  · split
    · exact opened.same rfl
    · exact opened.answerRetry _

theorem retryFrom (law : s.lanesLawful) (first : Nat) : (s.retryFrom first).lanesLawful :=
  foldl (fun t l law => by
    split
    · exact law.retryAt l
    · exact law) law _

/-- A retry round (R53). -/
theorem retryRound (law : s.lanesLawful) : s.retryRound.lanesLawful := by
  unfold State.retryRound
  split
  · exact (law.answerRetry _).retryFrom _
  · split
    · exact retryFrom (s := s.clearOffer) (law.same rfl) 0
    · exact law

/-- A step with no command waiting (log 6). -/
theorem goOn (law : s.lanesLawful) : s.goOn.lanesLawful := by
  unfold State.goOn
  split
  · exact law.retryRound
  · split
    · exact law
    · exact (LaneTurn.runLane (law _)).lanesLawful law

/-! ### Starts and aborts (R70, R89, R93, R95) -/

theorem startLane (law : s.lanesLawful) (l : Fin 4) (k : Fin 256) (clear : Bool) (o : Origin) :
    (s.startLane l k clear o).lanesLawful := (LaneTurn.startLane s l k clear o).lanesLawful law

theorem cutHandles (law : s.lanesLawful) (l : Fin 4) : (s.cutHandles l).lanesLawful :=
  foldl (fun t i law => by
    unfold State.onHandle
    split
    · exact law
    · exact law.same (Apart.opStop ..).lanes) law _

/-- An abort, with or without CUT and its notice (R89). -/
theorem abortLane (law : s.lanesLawful) (l : Fin 4) (cut post : Bool) : (s.abortLane l cut post).lanesLawful := by
  have idle : (s.setLane l { (s.lane l).idled with notice := none }).lanesLawful :=
    (LaneTurn.setLane ((Lane.lawful_notice (.inl rfl) none).trans (Lane.lawful_idled (s.lane l)))).lanesLawful law
  have aborted : (if cut = true then (s.setLane l { (s.lane l).idled with notice := none }).cutHandles l
      else s.setLane l { (s.lane l).idled with notice := none }).lanesLawful := by
    split
    · exact idle.cutHandles l
    · exact idle
  unfold State.abortLane
  dsimp only
  split
  · exact aborted.same (State.lanes_post ..)
  · exact aborted

/-- A binding start (R93). -/
theorem bindingStart (law : s.lanesLawful) (i : Fin 32) (b : Binding) : (s.bindingStart i b).2.lanesLawful := by
  unfold State.bindingStart
  dsimp only
  split
  · exact law.startLane b.lane b.entry b.clear (.binding i)
  · split
    · exact law
    · exact (law.abortLane b.lane true false).startLane b.lane b.entry b.clear (.binding i)
    · split
      · exact law
      · refine (LaneTurn.setLane ?_).lanesLawful law
        have lawful := law b.lane
        unfold Lane.lawful at lawful ⊢
        cases h : (s.lane b.lane).state <;> simp_all

/-- The lanes that starve on a slot (R70). -/
theorem wakeStarved (law : s.lanesLawful) (k : Fin 256) : (s.wakeStarved k).lanesLawful :=
  foldl (fun t l law => by
    split
    · next starves =>
      obtain ⟨-, wait, notice, fault, budget⟩ := (Lane.lawful_starved starves.1).1 (law l)
      have fetched := LaneTurn.fetch ⟨wait, notice, fault, by omega⟩ k
      exact (LaneTurn.after fetched.others (LaneTurn.runLane fetched.lawful)).lanesLawful law
    · exact law) law _

theorem nextAutostart (law : s.lanesLawful) : s.nextAutostart.lanesLawful := by
  unfold State.nextAutostart
  split
  · exact law
  · next l k rest _ =>
    have taken : ({ s with autostartDue := rest } : State).lanesLawful := law.same rfl
    dsimp only
    split
    · exact taken.startLane l k true .autostart
    · exact taken

/-- The notices released before EVENT READ (R92). -/
theorem releaseNotices (law : s.lanesLawful) : s.releaseNotices.lanesLawful :=
  foldl (fun _ l law => (LaneTurn.postNotice (law l)).lanesLawful law) law _

/-! ### Bindings and routed codes (R105, R108) -/

theorem bindingActs (law : s.lanesLawful) (i : Fin 32) : (s.bindingActs i).lanesLawful := by
  unfold State.bindingActs
  dsimp only
  split
  · exact law.same rfl
  · have started := bindingStart (s := s.setBinding i { s.binding i with holdoffLeft := (s.binding i).holdoff * 10 })
      (law.same rfl) i (s.binding i)
    split
    · next e => rw [e] at started; exact started.same rfl
    · next e => rw [e] at started; exact started

theorem fireBindings (law : s.lanesLawful) (c : Code) : (s.fireBindings c).2.lanesLawful := by
  have each (is : List (Fin 32)) (m : Bool) (s : State) (law : s.lanesLawful) :
      (is.foldl (fun (m, s) i => if (s.binding i).matches c then (true, s.bindingActs i) else (m, s)) (m, s)).2.lanesLawful := by
    induction is generalizing m s with
    | nil => exact law
    | cons i is ih =>
      rw [List.foldl_cons]
      dsimp only
      split
      · exact ih true _ (law.bindingActs i)
      · exact ih m s law
  exact each _ _ s law

/-- A code that has passed the filter (R105). The calls are taken by cases, so that the kernel never evaluates the 32 bindings'
turns. -/
theorem routeCode (law : s.lanesLawful) (c : Code) : (s.routeCode c).lanesLawful := by
  have reported (b : Prop) [Decidable b] (r : Byte) (u : State) (law : u.lanesLawful) :
      (if b then u.postTrigger r c else u).lanesLawful := by
    split
    · exact law.same (State.lanes_post ..)
    · exact law
  unfold State.routeCode
  extract_lets v
  have lawful : v.lanesLawful := reported _ 0 s law
  clear_value v
  split
  next woken t woke =>
  have lawful : t.lanesLawful := by simpa only [woke] using lawful.reportCode c
  split
  next matched u acted =>
  have lawful : u.lanesLawful := by simpa only [acted] using lawful.fireBindings c
  split
  · exact reported _ 1 _ (lawful.same rfl)
  · exact lawful

end State.lanesLawful

end Sys2Proof.Machine
end

section
/-! PROOFS. Every step keeps the lanes' law: the owners of the requests, the two lines, time, the resets and loading (R22, R75, R88,
R91, R164 to R166). -/

namespace Sys2Proof.Machine

/-! ### The owners of the requests (R164, R166, R174) -/

/-- What a host request of chapter 5 comes to, from its length check on: a refusal for its type or its length, a bad field, or the
taking of the part that owns it. -/
inductive RequestOwner : Taking → Prop
  | refused (st : Status) : RequestOwner fun s => refuse s st
  | badField (i : Nat) : RequestOwner fun s => badField s i
  | identify : RequestOwner doIdentify
  | resetWarm : RequestOwner doResetWarm
  | resetCold : RequestOwner doResetCold
  | linkSet (rate) : RequestOwner (doLinkSet rate)
  | clipDefine (w) : RequestOwner (doClipDefine w)
  | clipDelete (clip) : RequestOwner (doClipDelete clip)
  | clipRead (clip) : RequestOwner (doClipRead clip)
  | storeRead (addr count) : RequestOwner (doStoreRead addr count)
  | storeProgram (addr data) : RequestOwner (doStoreProgram addr data)
  | storeErase (sector) : RequestOwner (doStoreErase sector)
  | storeStatus : RequestOwner doStoreStatus
  | setupCommit : RequestOwner doSetupCommit
  | cueWrite (slot block) : RequestOwner (doCueWrite slot block)
  | cueClear (first last) : RequestOwner (doCueClear first last)
  | cueRead (first count) : RequestOwner (doCueRead first count)
  | laneStart (lane slot clear) : RequestOwner (doLaneStart lane slot clear)
  | lanePause (lane) : RequestOwner (doLanePause lane)
  | laneResume (lane) : RequestOwner (doLaneResume lane)
  | laneAbort (lane voices) : RequestOwner (doLaneAbort lane voices)
  | laneStatus (lane) : RequestOwner (doLaneStatus lane)
  | autostartSet (lane enabled slot) : RequestOwner (doAutostartSet lane enabled slot)
  | voicePlay (w) : RequestOwner (doVoicePlay w)
  | voiceRamp (voice g target rate scale mode notify) : RequestOwner (doVoiceRamp voice g target rate scale mode notify)
  | voiceRelease (voice g) : RequestOwner (doVoiceRelease voice g)
  | voiceStop (voice g) : RequestOwner (doVoiceStop voice g)
  | voiceHold (voice g) : RequestOwner (doVoiceHold voice g)
  | voiceContinue (voice g) : RequestOwner (doVoiceContinue voice g)
  | voiceStatus (voice) : RequestOwner (doVoiceStatus voice)
  | filterSet (count codes) : RequestOwner (doFilterSet count codes)
  | bindSet (w) : RequestOwner (doBindSet w)
  | bindClear (binding) : RequestOwner (doBindClear binding)
  | bindRead (binding) : RequestOwner (doBindRead binding)
  | triggerSet (rate report) : RequestOwner (doTriggerSet rate report)
  | outputSet (mode left right mute zone) : RequestOwner (doOutputSet mode left right mute zone)
  | eventRead (count) : RequestOwner (doEventRead count)
  | tallyRead (choice) : RequestOwner (doTallyRead choice)

namespace RequestOwner

theorem sized (n : Nat) (payload : List Byte) {f : (Nat → Byte) → Taking} (owner : ∀ p, RequestOwner (f p)) :
    RequestOwner (sized n payload f) := by
  unfold Machine.sized
  split
  · exact owner _
  · exact .refused .badLength

theorem takeReset (kind : Byte) : RequestOwner (takeReset kind) := by
  unfold Machine.takeReset
  split
  · exact .resetWarm
  · exact .resetCold
  · exact .badField 0

theorem takeFilterSet (payload : List Byte) : RequestOwner (takeFilterSet payload) := by
  unfold Machine.takeFilterSet
  split
  · exact .refused .badLength
  · split
    · exact .filterSet ..
    · exact .refused .badLength

/-- Whatever a type and a payload spell (R166, R174). The row of each type is one constructor, but RESET's, FILTER SET's and that of no
type. -/
theorem requestOf (type : Byte) (payload : List Byte) : RequestOwner (requestOf type payload) := by
  unfold Machine.requestOf
  split
  case h_2 => exact sized _ _ fun p => takeReset (p 0)
  case h_28 => exact takeFilterSet payload
  case h_36 => exact .refused .badType
  all_goals exact sized _ _ fun _ => by constructor

end RequestOwner

/-- A host request is a request to its owner (log 1). -/
theorem exec_of_host {c : Instr} {tag type : Byte} (h : requestHead c = some (tag, type)) :
    ∃ f, RequestOwner f ∧ ∀ s, exec c s = .next (s.request tag type f) := by
  cases c
  all_goals cases h
  all_goals
    refine ⟨_, ?_, fun _ => rfl⟩
    constructor

/-! ### HOLD and CONTINUE touch no lane (R18) -/

namespace Apart

theorem opHold (s : State) (h : Handle) : Apart s (s.opHold h).2 := by
  unfold State.opHold
  split
  · exact refl s
  · exact refl s
  · exact refl s
  · split
    · exact body ..
    · exact body ..
    · exact refl s

theorem opContinue (s : State) (h : Handle) : Apart s (s.opContinue h).2 := by
  unfold State.opContinue
  split
  · exact refl s
  · exact refl s
  · exact refl s
  · split
    · exact body ..
    · exact body ..
    · exact refl s

end Apart

/-! ### The owners keep the lanes' law -/

namespace State.lanesLawful

variable {s : State}

/-- An answer beside the state. -/
theorem answered {α : Type} (law : s.lanesLawful) (a : α) : (a, s).2.lanesLawful := law

theorem onLane {lane : Byte} {f : Fin 4 → Taking} (law : s.lanesLawful) (keeps : ∀ l, (f l s).2.lanesLawful) :
    (onLane lane f s).2.lanesLawful := by
  unfold Machine.onLane
  split
  · exact law
  · exact keeps _

theorem onVoice {voice g : Byte} {f : State → Handle → Status × State} (law : s.lanesLawful) (apart : ∀ h, Apart s (f s h).2) :
    (onVoice voice g f s).2.lanesLawful := by
  unfold Machine.onVoice
  split
  · exact law
  · exact law.same (apart _).lanes

theorem doCueWrite (law : s.lanesLawful) (slot : Byte) (block : List Byte) : (doCueWrite slot block s).2.lanesLawful := by
  unfold Machine.doCueWrite State.writeCue
  split
  · exact law
  · split
    · exact law
    · next b _ =>
      split
      · exact law
      · split
        · exact law
        · have filled : (s.setCue slot.toFin (some b)).lanesLawful := law.same rfl
          exact (filled.wakeStarved slot.toFin).answered _

theorem doLaneStart (law : s.lanesLawful) (lane slot clear : Byte) : (doLaneStart lane slot clear s).2.lanesLawful :=
  law.onLane fun l => by
    unfold State.laneStartAt
    split
    · exact (law.startLane l slot.toFin (yesNo clear) .link).answered _
    · exact (law.startLane l slot.toFin (yesNo clear) .link).answered _
    all_goals exact law

theorem doLaneAbort (law : s.lanesLawful) (lane voices : Byte) : (doLaneAbort lane voices s).2.lanesLawful :=
  law.onLane fun l => by
    split
    · exact law
    · exact (law.abortLane l (yesNo voices) true).answered _

theorem doAutostartSet (law : s.lanesLawful) (lane enabled slot : Byte) : (doAutostartSet lane enabled slot s).2.lanesLawful :=
  law.onLane fun l => by
    split
    · exact law
    · exact law.same rfl

theorem doVoicePlay (law : s.lanesLawful) (w : OrderWire) : (doVoicePlay w s).2.lanesLawful := by
  unfold Machine.doVoicePlay
  split
  · exact law
  · next o _ =>
    have order := Apart.takeOrder s o .link
    unfold State.playAnswer
    split <;> next e => rw [e] at order; exact law.same order.lanes

theorem doVoiceRamp (law : s.lanesLawful) (voice g : Byte) (target : Half) (rate scale mode notify : Byte) :
    (doVoiceRamp voice g target rate scale mode notify s).2.lanesLawful := by
  unfold Machine.doVoiceRamp
  split
  · exact law
  · split
    · exact law
    · exact law.same (Apart.opRamp ..).lanes

theorem beginOn (law : s.lanesLawful) (i : Fin 128) (r : OpRecord) : (s.beginOn i r).2.lanesLawful := by
  unfold State.beginOn
  repeat' split
  · exact law
  · exact law
  · exact law
  · exact law.same (Aside.beginStep ..).lanes

theorem doEventRead (law : s.lanesLawful) (count : Byte) : (doEventRead count s).2.lanesLawful := by
  unfold Machine.doEventRead
  split
  · exact law
  · exact law.releaseNotices.same rfl

end State.lanesLawful

/-- The owner of a request keeps the lanes' law. All but the owners of CUE WRITE, of the lane requests, of EVENT READ and of RESET leave
the lanes as they are. -/
theorem RequestOwner.lanesLawful {f : Taking} (owner : RequestOwner f) {s : State} (law : s.lanesLawful) : (f s).2.lanesLawful := by
  cases owner with
  | cueWrite slot block => exact law.doCueWrite slot block
  | laneStart lane slot clear => exact law.doLaneStart lane slot clear
  | lanePause lane => exact law.onLane fun l => (LaneTurn.pauseRequest (law l)).lanesLawful law
  | laneResume lane => exact law.onLane fun l => (LaneTurn.resumeLane (law l)).lanesLawful law
  | laneAbort lane voices => exact law.doLaneAbort lane voices
  | laneStatus lane => exact law.onLane fun _ => law
  | autostartSet lane enabled slot => exact law.doAutostartSet lane enabled slot
  | eventRead count => exact law.doEventRead count
  | resetWarm => exact State.lanesLawful_reset.same rfl
  | voicePlay w => exact law.doVoicePlay w
  | voiceRamp voice g target rate scale mode notify => exact law.doVoiceRamp voice g target rate scale mode notify
  | voiceRelease voice g => exact law.onVoice (Apart.opRelease s)
  | voiceStop voice g => exact law.onVoice (Apart.opStop s)
  | voiceHold voice g => exact law.onVoice (Apart.opHold s)
  | voiceContinue voice g => exact law.onVoice (Apart.opContinue s)
  | storeProgram addr data =>
    unfold doStoreProgram
    repeat' split
    · exact law
    · exact law
    · exact law
    · exact law.beginOn _ _
  | storeErase sector =>
    unfold doStoreErase
    split
    · exact law
    · exact law.beginOn _ _
  | setupCommit =>
    unfold doSetupCommit
    split
    · exact law
    · exact law.same (Aside.beginStep ..).lanes
  | refused => exact law
  | badField => exact law
  | identify => exact law
  | storeStatus => exact law
  | resetCold => exact law.same rfl
  | linkSet => unfold doLinkSet; split <;> exact law.same rfl
  | clipDefine =>
    unfold doClipDefine State.defineClip
    repeat' split
    all_goals exact law.same rfl
  | clipDelete =>
    unfold doClipDelete
    repeat' split
    all_goals exact law.same rfl
  | clipRead => unfold doClipRead; split <;> exact law
  | storeRead =>
    unfold doStoreRead
    repeat' split
    all_goals exact law
  | cueClear =>
    unfold doCueClear
    repeat' split
    all_goals exact law.same rfl
  | cueRead => unfold doCueRead; split <;> exact law
  | voiceStatus => unfold doVoiceStatus; split <;> exact law
  | filterSet =>
    unfold doFilterSet
    repeat' split
    all_goals exact law.same rfl
  | bindSet =>
    unfold doBindSet
    repeat' split
    all_goals exact law.same rfl
  | bindClear =>
    unfold doBindClear
    repeat' split
    all_goals exact law.same rfl
  | bindRead => unfold doBindRead; split <;> exact law
  | triggerSet =>
    unfold doTriggerSet
    repeat' split
    all_goals exact law.same rfl
  | outputSet =>
    unfold doOutputSet
    repeat' split
    all_goals exact law.same rfl
  | tallyRead => unfold doTallyRead; split <;> exact law.same rfl

/-! ### The host line (R161 to R166) -/

namespace State.lanesLawful

variable {s : State}

theorem takeRequest (law : s.lanesLawful) {f : Taking} (owner : RequestOwner f) (tag type : Byte) :
    (s.takeRequest tag type f).lanesLawful :=
  (owner.lanesLawful (s := s.oweReply) (law.same rfl)).same rfl

theorem request (law : s.lanesLawful) {f : Taking} (owner : RequestOwner f) (tag type : Byte) :
    (s.request tag type f).lanesLawful := by
  unfold State.request
  split
  · exact law
  · split
    · exact law.same rfl
    · exact law.takeRequest owner tag type

theorem takeFrame (law : s.lanesLawful) (bytes : List Byte) (length : Nat) : (s.takeFrame bytes length).lanesLawful := by
  unfold State.takeFrame
  dsimp only
  split
  · exact law.same rfl
  · split
    · exact law.same rfl
    · exact law.takeRequest (.requestOf _ _) _ _

theorem keepByte (law : s.lanesLawful) (held : List Byte) : (s.keepByte held).lanesLawful := by
  unfold State.keepByte
  split
  · exact law.same rfl
  · split
    · exact law.same rfl
    · split
      · exact law.same rfl
      · exact takeFrame (s := { s with lnk := s.lnk.hunt }) (law.same rfl) _ _

theorem hostTake (law : s.lanesLawful) (b : Byte) (good : Bool) : (s.hostTake b good).lanesLawful := by
  unfold State.hostTake
  split
  · exact law
  · split
    · exact law.same rfl
    · exact law
  · split
    · exact law.keepByte _
    · exact law.same rfl

theorem lanes_noteLnk (s : State) (r : Reception) : (s.noteLnk r).lanes = s.lanes := by
  unfold State.noteLnk
  split <;> rfl

theorem hostByte (law : s.lanesLawful) (b : Byte) (good : Bool) : (s.hostByte b good).lanesLawful := by
  have noted (r : Reception) : (s.noteLnk r).lanesLawful := law.same (lanes_noteLnk s r)
  unfold State.hostByte
  split
  · exact noted _
  · exact (noted _).hostTake b good

theorem hostLine (law : s.lanesLawful) (good : Bool) (e : LineEvent) : (s.hostLine good e).lanesLawful := by
  cases e with
  | startBit => exact law.same (lanes_noteLnk ..)
  | byte b => exact law.hostByte b good

theorem hostGapFrame (law : s.lanesLawful) : s.hostGapFrame.lanesLawful := by
  unfold State.hostGapFrame
  split
  · split
    · exact law.same rfl
    · exact law.same rfl
  · exact law

/-! ### The trigger line (R100 to R105) -/

theorem trigFrame (law : s.lanesLawful) (held : List Byte) : (s.trigFrame held).lanesLawful := by
  unfold State.trigFrame
  dsimp only
  split
  · exact law.same rfl
  · split
    · exact law.routeCode _
    · exact law

theorem trigTake (law : s.lanesLawful) (b : Byte) (good : Bool) : (s.trigTake b good).lanesLawful := by
  unfold State.trigTake
  split
  · exact law
  · split
    · exact law.same rfl
    · exact law
  · split
    · dsimp only
      split
      · exact law.same rfl
      · exact trigFrame (s := { s with trg := s.trg.hunt }) (law.same rfl) _
    · exact law.same rfl

theorem lanes_noteTrg (s : State) (r : Reception) : (s.noteTrg r).lanes = s.lanes := by
  unfold State.noteTrg
  split <;> rfl

theorem trigByte (law : s.lanesLawful) (b : Byte) (good : Bool) : (s.trigByte b good).lanesLawful := by
  have noted (r : Reception) : (s.noteTrg r).lanesLawful := law.same (lanes_noteTrg s r)
  unfold State.trigByte
  split
  · exact noted _
  · exact (noted _).trigTake b good

theorem trigLine (law : s.lanesLawful) (good : Bool) (e : LineEvent) : (s.trigLine good e).lanesLawful := by
  cases e with
  | startBit => exact law.same (lanes_noteTrg ..)
  | byte b => exact law.trigByte b good

theorem trigGapFrame (law : s.lanesLawful) : s.trigGapFrame.lanesLawful := by
  unfold State.trigGapFrame
  split
  · split
    · exact law.same rfl
    · exact law.same rfl
  · exact law

/-! ### Time (R137, R138, log 3) -/

theorem tickRest (law : s.lanesLawful) : s.tickRest.lanesLawful := by
  have counted : s.countShare.lanesLawful := law.same (Aside.countShare s).lanes
  have held : (s.countShare.lanesThrough 3).holdoffShare.lanesLawful := (counted.lanesThrough 3).same (Aside.holdoffShare _).lanes
  exact held.same (Aside.storeShare _).lanes

theorem frame (law : s.lanesLawful) : s.frame.lanesLawful := by
  have voiced : (s.voicesThrough 15).lanesLawful := law.same (Apart.voicesThrough s 15).lanes
  have mixed : (s.voicesThrough 15).mixFrame.lanesLawful := voiced.same (Aside.mixFrame _).lanes
  have host {u : State} (law : u.lanesLawful) : u.hostGapShare.lanesLawful := by
    unfold State.hostGapShare
    split
    · exact law
    · exact law.hostGapFrame
  have trig {u : State} (law : u.lanesLawful) : u.trigGapShare.lanesLawful := by
    unfold State.trigGapShare
    split
    · exact law
    · exact law.trigGapFrame
  have ended {u : State} (law : u.lanesLawful) : u.endFrame.lanesLawful := by
    have tick : (if u.tickComes = true then u.tickRest else u).lanesLawful := by
      split
      · exact law.tickRest
      · exact law
    exact tick.same rfl
  exact ended (trig (host mixed))

theorem ite {t : State} (law : s.lanesLawful) (h : t.lanesLawful) (b : Bool) : (if b = true then t else s).lanesLawful := by
  split
  · exact h
  · exact law

/-- A command of log 3 that takes a share of the coming frame ahead, or has no effect. -/
theorem ahead {t : State} (law : s.lanesLawful) (h : t.lanesLawful) (b : Bool) (p : Progress) :
    (if b = true then { t with progress := p } else s).lanesLawful :=
  law.ite (t := { t with progress := p }) (h.same rfl) b

theorem laneAhead (law : s.lanesLawful) (l : Fin 4) (b : Bool) : (if b = true then s.laneAhead l else s).lanesLawful := by
  have counted : s.countShare.lanesLawful := law.same (Aside.countShare s).lanes
  exact law.ahead (counted.lanesThrough _) b _

/-! ### The resets and loading (R22, R135, R136, R171, R181, R182) -/

/-- What each reset makes of the lanes: every lane is IDLE. -/
theorem of_reset {t : State} (h : t.lanes = State.reset.lanes) : t.lanesLawful := State.lanesLawful_reset.same h

theorem replyEnds (law : s.lanesLawful) : s.replyEnds.lanesLawful := by
  unfold State.replyEnds
  split
  · exact law.same rfl
  · exact law.same rfl
  · exact of_reset rfl

theorem assertNrst (law : s.lanesLawful) : s.assertNrst.lanesLawful := by
  unfold State.assertNrst
  split
  · exact law
  · split
    · exact of_reset rfl
    · exact law.same rfl

theorem powerOn (law : s.lanesLawful) : s.powerOn.lanesLawful := by
  unfold State.powerOn
  split
  · exact law
  · exact of_reset rfl

theorem powerOff (law : s.lanesLawful) : s.powerOff.lanesLawful := by
  unfold State.powerOff
  split
  · exact of_reset rfl
  · exact law

theorem load (law : s.lanesLawful) : s.load.lanesLawful := by
  rcases s.load_cases with same | ⟨-, -, loaded⟩
  · rw [same]; exact law
  · rw [loaded]; exact law.same (State.lanes_post ..)

end State.lanesLawful

/-! ### Every step -/

/-- Every command keeps the lanes' law (R75, R88, R91, R94). -/
theorem exec_lanesLawful {c : Instr} {s t : State} (h : exec c s = .next t) (law : s.lanesLawful) : t.lanesLawful := by
  cases hc : requestHead c with
  | some p =>
    obtain ⟨f, owner, he⟩ := exec_of_host (tag := p.1) (type := p.2) hc
    cases (he s).symm.trans h
    exact law.request owner p.1 p.2
  | none =>
    cases c with
    | hostFrameComplete => cases h; exact law.hostByte _ _
    | hostGapTimeout => cases h; exact law.ahead law.hostGapFrame _ _
    | replySent => cases h; split; exacts [law.replyEnds, law]
    | nrstAssert => cases h; exact law.assertNrst
    | nrstRelease => cases h; exact law.same rfl
    | powerUp => cases h; exact law.powerOn
    | setupLoad => cases h; exact law.load
    | autostartEntry => cases h; exact law.nextAutostart
    | triggerFrameComplete => cases h; exact law.trigByte _ _
    | trigGapTimeout => cases h; exact law.ahead law.trigGapFrame _ _
    | frame => cases h; exact law.ite law.frame s.power
    | cutComplete v => cases h; exact law.ahead (law.same (Apart.voicesThrough s v.val).lanes) _ _
    | rampMoveInstant v => cases h; exact law.ahead (law.same (Apart.voicesThrough s v.val).lanes) _ _
    | muteRampEnd => cases h; exact law.same (Aside.muteAhead s).lanes
    | msTick => cases h; exact law.ahead law.tickRest _ _
    | waitTimeExpiry => cases h; exact law.laneAhead _ _
    | heldNoticeExpiry => cases h; exact law.laneAhead _ _
    | holdoffExpiry => cases h; exact law.same (Aside.holdoffAhead ..).lanes
    | stepTimeout => cases h; exact law.same (Aside.stepAhead s).lanes
    | storeStepDone => cases h; exact law.same (Aside.stepDone s).lanes
    | handleNotLive => cases h; exact law.nextSignal
    | retryRound => cases h; exact law.retryRound
    | hostByteReceived => cases h; exact law.hostLine _ _
    | triggerByteReceived => cases h; exact law.trigLine _ _
    | powerLoss => cases h; exact law.powerOff
    | _ => cases hc

/-- Settles O58: the law speaks of each lane alone; a turn of a lane leaves the others as they were, and whatever ends a turn leaves the
lane in a state with the fields it may hold. -/
theorem stepKeepsTheLanesLawful : Obligations.StepKeepsTheLanesLawful := by
  unfold Obligations.StepKeepsTheLanesLawful
  intro s t law h
  rcases step_cases h with rfl | ⟨c, rest, h⟩
  · exact law.goOn
  · exact exec_lanesLawful h (law.same rfl)

end Sys2Proof.Machine
end

section
/-! PROOFS. The front of the queue, and the requests that read the part: the status records, EVENT READ and TALLY READ (R92, R96, R154,
R157, R178). -/

namespace Sys2Proof.Machine

/-- Settles O1: the step takes the first command, and with none waiting a standing retry, or nothing. -/
theorem stepTakesTheFrontCommand : Obligations.StepTakesTheFrontCommand := by
  unfold Obligations.StepTakesTheFrontCommand
  constructor
  · intro c rest s pending
    unfold step
    rw [pending]
  · intro s pending
    have goes : step s = .next s.goOn := by
      unfold step
      rw [pending]
    constructor
    · intro stands
      rw [goes, State.goOn_retry (Option.isSome_iff_ne_none.2 stands), exec_retryRound]
    · intro answered idle
      rw [goes, State.goOn_idle answered idle]

/-! ### The status records (R178) -/

section

variable {s : State} {tag lane voice : Byte} {l : Fin 4} {v : Fin 16}

/-- A number as the byte that names it. -/
theorem byte1_of_toNat {b : Byte} {n : Nat} (h : b.toNat = n) : byte1 n = b := by
  rw [← h, byte1_toNat]

/-- A code's four bytes (R172). -/
theorem be32_toNat (c : Code) : be32 c.toNat = codeBytes c := by
  have lowest : byte1 c.toNat = c.extractLsb' 0 8 := by
    rw [← byte1_div c 0, pow_zero, Nat.div_one]
  exact congrArg₂ List.cons (byte1_div c 24)
    (congrArg₂ List.cons (byte1_div c 16) (congrArg₂ List.cons (byte1_div c 8) (congrArg (· :: []) lowest)))

theorem length_handleBytes (h : Option Handle) : (handleBytes h).length = 2 := by cases h <;> rfl

theorem length_waitStatus (w : Option Wait) : (waitStatus w).length = 5 := by rcases w with _ | _ | _ | _ | _ <;> rfl

theorem length_releaseBytes (r : Option Release) : (releaseBytes r).length = 2 := by cases r <;> rfl

theorem length_rampStatus (r : Option Ramp) : (rampStatus r).length = 5 := by cases r <;> rfl

theorem length_cutStatus (c : Cut) (z : Option Successor) : (cutStatus c z).length = 6 := by cases z <;> rfl

/-- The lane status record has 31 bytes. -/
theorem length_laneStatusBytes (l : Fin 4) (x : Lane) : (laneStatusBytes l x).length = 31 := by
  unfold laneStatusBytes
  simp only [List.length_append, length_handleBytes, length_waitStatus]
  cases x.rep <;> cases x.notice <;> cases x.pendingStart <;> cases x.fault <;> rfl

theorem length_soundingStatus (y : Sounding) : (soundingStatus y).length = 26 := by
  unfold soundingStatus be24 be16
  simp only [List.length_append, length_releaseBytes, length_rampStatus, List.length_cons, List.length_nil]

/-- The voice status record has 36 bytes. -/
theorem length_voiceStatusBytes (v : Fin 16) (x : Voice) : (voiceStatusBytes v x).length = 36 := by
  unfold voiceStatusBytes
  split
  all_goals simp only [List.length_append, length_soundingStatus, length_rampStatus, length_cutStatus, List.length_replicate,
    List.length_cons, List.length_nil]

theorem exec_laneStatus (hs : s.takesRequests) (hl : lane.toNat = l.val) :
    exec (.laneStatus tag lane) s = .next (s.replying tag 0xAC .ok (laneStatusBytes l (s.lane l))) :=
  congrArg _ (State.request_unchanged hs tag 0x2C (doLaneStatus lane) ⟨.ok, laneStatusBytes l (s.lane l)⟩ (onLane_good hl _))

theorem exec_voiceStatus (hs : s.takesRequests) (hv : voice.toNat = v.val) :
    exec (.voiceStatus tag voice) s = .next (s.replying tag 0xB6 .ok (voiceStatusBytes v (s.voice v))) := by
  refine congrArg _ (State.request_unchanged hs tag 0x36 (doVoiceStatus voice) ⟨.ok, voiceStatusBytes v (s.voice v)⟩ ?_)
  unfold doVoiceStatus
  rw [finOf_of_lt (by omega : voice.toNat < 16), show (⟨voice.toNat, _⟩ : Fin 16) = v from Fin.ext hv]
  rfl

/-- The record answered to VOICE STATUS, once it is known by its fields. -/
theorem exec_voiceStatus_record (hs : s.takesRequests) (hv : voice.toNat = v.val) {data : List Byte}
    (record : voiceStatusBytes v (s.voice v) = data) :
    exec (.voiceStatus tag voice) s = .next (s.replying tag 0xB6 .ok data) ∧ data.length = 36 := by
  rw [← record]
  exact ⟨exec_voiceStatus hs hv, length_voiceStatusBytes ..⟩

end

/-- Settles O28: the two records are sent as they stand, and their layout is that of R178 part by part. -/
theorem statusRecordsAnswerTheContext : Obligations.StatusRecordsAnswerTheContext := by
  unfold Obligations.StatusRecordsAnswerTheContext
  constructor
  · intro tag lane s hs
    refine ⟨fun bad => State.request_badField hs (type := 0x2C) (by decide) tag (onLane_bad bad _), ?_⟩
    intro l hl x bit handle wait
    refine ⟨laneStatusBytes l x, exec_laneStatus hs hl, length_laneStatusBytes .., ?_⟩
    have waits : waitStatus x.wait = wait := by
      dsimp only [wait]
      rcases x.wait with _ | _ | _ | c | _
      case some.code => exact congrArg _ (be32_toNat c)
      all_goals rfl
    have handles (i : Fin 4) : handleBytes (x.handles.get i) = handle i := by
      dsimp only [handle]
      cases x.handles.get i <;> rfl
    unfold laneStatusBytes
    rw [byte1_of_toNat hl, waits, handles, handles, handles, handles]
    rfl
  · intro tag voice v s hs hv x start answers
    have starts (y : Sounding) : soundingStatus y = start y := by
      dsimp only [start]
      unfold soundingStatus
      have direction : y.direction.code = if y.direction = .forward then 0 else 1 := by cases y.direction <;> rfl
      rw [direction]
      cases y.release <;> cases y.ramp <;> rfl
    have answered {data : List Byte} (record : voiceStatusBytes v x = data) : answers data := exec_voiceStatus_record hs hv record
    unfold voiceStatusBytes at answered
    rw [byte1_of_toNat hv] at answered
    cases body : x.body with
    | free => exact answered (by rw [body]; rfl)
    | playing y => exact answered (by rw [body, ← starts])
    | releasing y => exact answered (by rw [body, ← starts])
    | held y from' => exact answered (by rw [body, ← starts]; cases from' <;> rfl)
    | cutting y c z => exact answered (by rw [body, ← starts]; cases z <;> simp [cutStatus, byte1])

/-! ### EVENT READ and TALLY READ (R92, R154, R157) -/

section

variable {s : State} {tag count : Byte}

theorem State.lane_postNotice (s : State) {l j : Fin 4} (h : l ≠ j) : (s.postNotice l).lane j = s.lane j := by
  unfold State.postNotice
  split
  · rfl
  · rw [State.lane_setLane, if_neg h]
    exact State.lane_post ..

theorem State.postNotice_none {l : Fin 4} (h : (s.lane l).notice = none) : s.postNotice l = s := by
  unfold State.postNotice
  rw [h]

/-- A notice that is posted (R91, R92). -/
theorem State.postNotice_held {l : Fin 4} {n : Notice} (h : (s.lane l).notice = some n) :
    s.postNotice l = s.withLane (s.post .laneIdle l.val 0 n.reason.code
      (eventValue (byte1 n.slot.val) 0 (originCode (s.lane l).origin) (originBinding (s.lane l).origin))) l
      { s.lane l with notice := none } := by
  unfold State.postNotice
  rw [h]
  exact ((KeepsLanes.refl s).post ..).setLane ..

theorem State.postNotice_oweReply (s : State) (l : Fin 4) : s.oweReply.postNotice l = (s.postNotice l).oweReply := by
  unfold State.postNotice
  rw [State.lane_oweReply]
  cases (s.lane l).notice with
  | none => rfl
  | some n => exact congrArg (State.setLane · l _) (State.post_oweReply ..)

/-- The held notices are released lane by lane, L0 first (R92). -/
theorem State.releaseNotices_eq (s : State) :
    s.releaseNotices = (((s.postNotice 0).postNotice 1).postNotice 2).postNotice 3 := rfl

theorem State.releaseNotices_oweReply (s : State) : s.oweReply.releaseNotices = s.releaseNotices.oweReply := by
  simp only [State.releaseNotices_eq, State.postNotice_oweReply]

/-- EVENT READ's data, by the queue that is read (R154). -/
theorem eventData_take (e : Evq) (n : Nat) : eventData (e.queue.take n) (e.remove n)
    = byte1 (min n e.queue.length) :: (e.queue.take n).flatMap eventBytes ++ [byte1 (e.queue.length - n), byte1 e.lost] := by
  unfold eventData Evq.remove
  rw [List.length_take, List.length_drop]

theorem exec_eventRead (hs : s.takesRequests) (least : 1 ≤ count.toNat) (most : count.toNat ≤ 8) {t : State}
    (released : s.releaseNotices = t) :
    exec (.eventRead tag count) s = .next (State.replying { t with evq := t.evq.remove count.toNat } tag 0xC8 .ok
      (eventData (t.evq.queue.take count.toNat) (t.evq.remove count.toNat))) := by
  show Host.Outcome.next (s.request tag 0x48 (doEventRead count)) = _
  rw [State.request_taken hs]
  unfold doEventRead
  rw [if_neg (by omega), State.releaseNotices_oweReply, released]
  rfl

theorem flatMap_finRange_get {α β : Type} {n : Nat} (t : Table α n) (f : α → List β) :
    ((List.finRange n).flatMap fun i => f (t.get i)) = t.cells.flatMap f := by
  rw [List.flatMap_def, List.flatMap_def, map_finRange_get]

theorem exec_tallyRead (hs : s.takesRequests) (choice : count.toNat ≤ 1) :
    exec (.tallyRead tag count) s = .next (State.replying { s with evq := s.evq.readTallies (yesNo count) } tag 0xC9 .ok
      (s.evq.tallies.cells.flatMap be16)) := by
  show Host.Outcome.next (s.request tag 0x49 (doTallyRead count)) = _
  rw [State.request_taken hs]
  unfold doTallyRead
  rw [if_neg (by omega)]
  rfl

end

/-- Settles O54: the notices of the four lanes stand in different lanes, so each is released as it stood before the request. -/
theorem eventReadAndTallyRead : Obligations.EventReadAndTallyRead := by
  unfold Obligations.EventReadAndTallyRead
  intro tag count s hs tallies reading release
  have release_eq {u : State} {l : Fin 4} (same : u.lane l = s.lane l) : u.postNotice l = release u l := by
    dsimp only [release]
    cases held : (s.lane l).notice with
    | none => exact State.postNotice_none (same ▸ held)
    | some n => rw [State.postNotice_held (same ▸ held), same]; rfl
  have released : s.releaseNotices = release (release (release (release s 0) 1) 2) 3 := by
    have first (j : Fin 4) (h : 0 ≠ j) : (s.postNotice 0).lane j = s.lane j := State.lane_postNotice s h
    have second (j : Fin 4) (h : 0 ≠ j) (h' : 1 ≠ j) : ((s.postNotice 0).postNotice 1).lane j = s.lane j :=
      (State.lane_postNotice _ h').trans (first j h)
    have third : (((s.postNotice 0).postNotice 1).postNotice 2).lane 3 = s.lane 3 :=
      (State.lane_postNotice _ (by decide)).trans (second 3 (by decide) (by decide))
    rw [State.releaseNotices_eq, release_eq third, release_eq (second 2 (by decide) (by decide)), release_eq (first 1 (by decide)),
      release_eq rfl]
  have sent : s.evq.tallies.cells.flatMap be16 = tallies := (flatMap_finRange_get s.evq.tallies be16).symm
  refine ⟨fun bad => ?_, fun least most => ?_, fun bad => ?_, ?_, ?_⟩
  · exact State.request_badField hs (type := 0x48) (by decide) tag (if_pos bad)
  · rw [exec_eventRead hs least most released, eventData_take]
    rfl
  · exact State.request_badField hs (type := 0x49) (by decide) tag (if_pos bad)
  · rintro rfl
    rw [exec_tallyRead hs (by decide), sent]
    rfl
  · rintro rfl
    rw [exec_tallyRead hs (by decide), sent]
    rfl

end Sys2Proof.Machine
end

section
/-! PROOFS. LANE PAUSE, LANE RESUME and LANE ABORT by the state of the lane (R86, R87, R89). -/

namespace Sys2Proof.Machine

/-! ### STOP on the handle slots of a lane (R89) -/

/-- STOP on the handle that a slot holds. -/
def State.stopHandle (s : State) (handles : Table (Option Handle) 4) (i : Fin 4) : State :=
  match handles.get i with
  | none => s
  | some h => (s.opStop h).2

/-- STOP on the handles of the four slots in order. -/
def State.stopHandles (s : State) (handles : Table (Option Handle) 4) : State :=
  (((s.stopHandle handles 0).stopHandle handles 1).stopHandle handles 2).stopHandle handles 3

section

variable {s : State} {handles : Table (Option Handle) 4} {l : Fin 4}

theorem Apart.stopHandle (s : State) (handles : Table (Option Handle) 4) (i : Fin 4) : Apart s (s.stopHandle handles i) := by
  unfold State.stopHandle
  split
  · exact refl s
  · exact opStop ..

theorem Apart.stopHandles (s : State) (handles : Table (Option Handle) 4) : Apart s (s.stopHandles handles) :=
  (((stopHandle s handles 0).trans (stopHandle _ _ 1)).trans (stopHandle _ _ 2)).trans (stopHandle _ _ 3)

theorem State.stopHandle_oweReply (s : State) (handles : Table (Option Handle) 4) (i : Fin 4) :
    s.oweReply.stopHandle handles i = (s.stopHandle handles i).oweReply := by
  unfold State.stopHandle
  split
  · rfl
  · next h _ => exact congrArg Prod.snd (State.opStop_ignoresReply s h)

theorem State.stopHandles_oweReply (s : State) (handles : Table (Option Handle) 4) :
    s.oweReply.stopHandles handles = (s.stopHandles handles).oweReply := by
  simp only [State.stopHandles, State.stopHandle_oweReply]

theorem State.onHandle_opStop {u : State} (apart : Apart s u) (h : (s.lane l).handles = handles) (i : Fin 4) :
    (u.onHandle l i fun s x => s.opStop x) = u.stopHandle handles i := by
  unfold State.onHandle
  rw [apart.lane, h]
  rfl

/-- A stop touches no handle slot, so the four stand as they were. -/
theorem State.cutHandles_eq (h : (s.lane l).handles = handles) : s.cutHandles l = s.stopHandles handles := by
  have first := Apart.stopHandle s handles 0
  have second := first.trans (Apart.stopHandle _ handles 1)
  have third := second.trans (Apart.stopHandle _ handles 2)
  unfold State.cutHandles
  simp only [List.foldl_cons, List.foldl_nil]
  rw [State.onHandle_opStop (.refl s) h, State.onHandle_opStop first h, State.onHandle_opStop second h,
    State.onHandle_opStop third h]
  unfold State.stopHandles
  rfl

end

/-! ### An abort (R89) -/

/-- An abort but for its notice: the lane is IDLE, and with CUT its handles' starts are stopped. -/
def State.aborted (s : State) (l : Fin 4) (cut : Bool) : State :=
  let idle := s.setLane l { (s.lane l).idled with notice := none }
  if cut then idle.stopHandles (s.lane l).handles else idle

section

variable {s : State} {l : Fin 4} {cut : Bool}

theorem State.aborted_oweReply (s : State) (l : Fin 4) (cut : Bool) : s.oweReply.aborted l cut = (s.aborted l cut).oweReply := by
  cases cut with
  | false => rfl
  | true => exact State.stopHandles_oweReply (s.setLane l { (s.lane l).idled with notice := none }) (s.lane l).handles

theorem State.lane_aborted (s : State) (l : Fin 4) (cut : Bool) :
    (s.aborted l cut).lane l = { (s.lane l).idled with notice := none } := by
  have idle : (s.setLane l { (s.lane l).idled with notice := none }).lane l = { (s.lane l).idled with notice := none } :=
    Table.get_set_self ..
  cases cut with
  | false => exact idle
  | true => exact ((Apart.stopHandles _ _).lane l).trans idle

/-- An abort in the words of `State.aborted`: the notice follows where it is due and posted. -/
theorem State.abortLane_eq (s : State) (l : Fin 4) (cut post : Bool) :
    s.abortLane l cut post
      = if (decide ((s.lane l).state ≠ .idle) || (s.lane l).notice.isSome) && post then
          (s.aborted l cut).postLaneIdle l laneIdleAbort
            (if (s.lane l).state = .idle then (s.lane l).notice.map fun n => n.slot else (s.lane l).slot) 0
        else s.aborted l cut := by
  have handles : ((s.setLane l { (s.lane l).idled with notice := none }).lane l).handles = (s.lane l).handles := by
    rw [State.lane_setLane, if_pos rfl]
    rfl
  unfold State.abortLane State.aborted
  dsimp only
  rw [State.cutHandles_eq handles]

theorem State.abortLane_silent (s : State) (l : Fin 4) (cut : Bool) : s.abortLane l cut false = s.aborted l cut := by
  rw [State.abortLane_eq, Bool.and_false]
  rfl

theorem State.abortLane_idle (idle : (s.lane l).state = .idle) (notice : (s.lane l).notice = none) (post : Bool) :
    s.abortLane l cut post = s.aborted l cut := by
  rw [State.abortLane_eq, idle, notice]
  rfl

/-- The abort's notice, in the words of the statements. -/
def State.abortPosts (s : State) (l : Fin 4) (cut : Bool) (k : Option (Fin 256)) : State :=
  (s.aborted l cut).post .laneIdle l.val 0 4
    (eventValue (slotByte k) 0 (originCode (s.lane l).origin) (originBinding (s.lane l).origin))

theorem State.postLaneIdle_aborted (s : State) (l : Fin 4) (cut : Bool) (k : Option (Fin 256)) :
    (s.aborted l cut).postLaneIdle l laneIdleAbort k 0 = s.abortPosts l cut k := by
  unfold State.postLaneIdle
  rw [State.lane_aborted]
  rfl

theorem State.abortLane_notice {n : Notice} (idle : (s.lane l).state = .idle) (notice : (s.lane l).notice = some n) :
    s.abortLane l cut true = s.abortPosts l cut (some n.slot) := by
  rw [State.abortLane_eq, State.postLaneIdle_aborted, idle, notice]
  rfl

theorem State.abortLane_busy (busy : (s.lane l).state ≠ .idle) : s.abortLane l cut true = s.abortPosts l cut (s.lane l).slot := by
  rw [State.abortLane_eq, State.postLaneIdle_aborted, if_neg busy, decide_eq_true busy]
  rfl

theorem State.abortPosts_oweReply (s : State) (l : Fin 4) (cut : Bool) (k : Option (Fin 256)) :
    s.oweReply.abortPosts l cut k = (s.abortPosts l cut k).oweReply := by
  unfold State.abortPosts
  rw [State.aborted_oweReply, State.post_oweReply]
  rfl

end

/-! ### A pause requested (R86) -/

section

variable {s : State} {l : Fin 4} {k : Fin 256} {b : CueBlock}

/-- The pause stands until the lane's block completes. -/
theorem State.pauseRequest_stands (h : (s.lane l).state = .running ∨ (s.lane l).state = .starved
      ∨ ((s.lane l).state = .waiting ∧ ∀ o, (s.lane l).wait ≠ some (.start o))) :
    s.pauseRequest l = (.ok, s.setLane l { s.lane l with pauseRequested := true }) := by
  unfold State.pauseRequest
  dsimp only
  rcases h with h | h | ⟨h, other⟩
  · rw [h]
  · rw [h]
  · rw [h]
    dsimp only
    split
    · next o e => exact absurd e (other o)
    · rfl

theorem State.pauseRequest_paused (h : (s.lane l).state = .paused) : s.pauseRequest l = (.ok, s) := by
  unfold State.pauseRequest
  dsimp only
  rw [h]

theorem State.pauseRequest_refused (h : (s.lane l).state = .idle ∨ (s.lane l).state = .faulted) :
    s.pauseRequest l = (.wrongState, s) := by
  unfold State.pauseRequest
  dsimp only
  rcases h with h | h <;> rw [h]

/-- A wait that ends with the pause standing (R80 step 4, R86). -/
theorem State.endWait_pauses (hk : (s.lane l).slot = some k) (hb : s.cues.get k = some b)
    (pause : (s.lane l).pauseRequested = true) :
    s.endWait l = (s.noteBlock l k b).stopLane l .pause k b.quiet ((s.lane l).pausedAt k) := by
  unfold State.endWait
  rw [State.currentBlock_eq hk hb]
  dsimp only
  rw [State.finishBlock_none, if_pos (by simp [pause])]
  unfold State.pauseLane
  rw [State.setLane_setLane, State.lane_setLane, if_pos rfl]
  rfl

/-- A lane that a pause is requested of. -/
def Lane.pausing (x : Lane) : Lane := { x with pauseRequested := true }

theorem State.pauseRequest_start {o : StartOrder} (waiting : (s.lane l).state = .waiting)
    (wait : (s.lane l).wait = some (.start o)) :
    s.pauseRequest l = (.ok, (s.setLane l (s.lane l).pausing).giveUpStart l) := by
  unfold State.pauseRequest
  dsimp only
  split
  case h_3 =>
    split
    · rfl
    · next other => exact absurd wait (other o)
  all_goals next e => exact LaneState.noConfusion (waiting.symm.trans e)

theorem State.giveUpStart_eq (hk : (s.lane l).slot = some k) : s.giveUpStart l = (s.postStartFail l .noVoice k).wakeLane l := by
  unfold State.giveUpStart
  rw [hk]

/-- A START wait is given up: START_FAIL, and the PLAY block completes into PAUSED (R86). -/
theorem State.pauseRequest_givesUp {o : StartOrder} (waiting : (s.lane l).state = .waiting)
    (wait : (s.lane l).wait = some (.start o)) (hk : (s.lane l).slot = some k) (hb : s.cues.get k = some b) :
    s.pauseRequest l
      = (.ok, ((s.postStartFail l .noVoice k).noteBlock l k b).stopLane l .pause k b.quiet ((s.lane l).pausedAt k)) := by
  have lane (u : State) : (u.setLane l (s.lane l).pausing).lane l = (s.lane l).pausing := Table.get_set_self ..
  have failed : (s.setLane l (s.lane l).pausing).postStartFail l .noVoice k
      = (s.postStartFail l .noVoice k).setLane l (s.lane l).pausing := State.post_setLane ..
  have block : ((s.postStartFail l .noVoice k).setLane l (s.lane l).pausing).cues.get k = some b :=
    (congrArg (Table.get · k) (State.cues_post ..)).trans hb
  have ended : ((s.postStartFail l .noVoice k).setLane l (s.lane l).pausing).endWait l
      = ((s.postStartFail l .noVoice k).noteBlock l k b).stopLane l .pause k b.quiet ((s.lane l).pausedAt k) := by
    rw [State.endWait_pauses (by rw [lane]; exact hk) block (by rw [lane]; rfl), lane, State.noteBlock_setLane]
    exact congrArg (State.oweNotice · l .pause k b.quiet) (State.setLane_setLane ..)
  rw [State.pauseRequest_start waiting wait, State.giveUpStart_eq (by rw [lane]; exact hk), failed,
    State.wakeLane_of_endWait ended]
  obtain ⟨notice, stopped⟩ := State.lane_stopLane ((s.postStartFail l .noVoice k).noteBlock l k b) l .pause k b.quiet
    ((s.lane l).pausedAt k)
  rw [stopped]
  exact LaneState.noConfusion

end

/-! ### A resume (R87) -/

section

variable {s : State} {l : Fin 4} {k : Fin 256} {b : CueBlock}

/-- A lane that enters IDLE by its LAST block, and takes a pending start (R80 step 5, R94). -/
theorem State.endRun_alone (alone : (s.lane l).pendingStart = none) (quiet : Nat) :
    s.endRun l k quiet = s.stopLane l .runEnd k quiet (s.lane l).idled := by
  unfold State.endRun
  rw [alone]
  rfl

theorem State.endRun_restarts {p : PendingStart} (pending : (s.lane l).pendingStart = some p) (quiet : Nat) :
    s.endRun l k quiet = (s.stopLane l .runEnd k quiet (s.lane l).idled).beginRun l p.entry p.clear (.binding p.binding) := by
  unfold State.endRun
  rw [pending]
  rfl

theorem State.resumeLane_refused (h : (s.lane l).state ≠ .paused) : s.resumeLane l = (.wrongState, s) := by
  unfold State.resumeLane
  split
  · next paused => exact absurd paused h
  · rfl

/-- A lane that goes on from PAUSED: a held notice is dropped (R87). -/
def Lane.resumed (x : Lane) : Lane := { x with notice := none, budget := 0 }

/-- A lane that is resumed. -/
def State.resumed (s : State) (l : Fin 4) : State := s.setLane l (s.lane l).resumed

theorem State.lane_resumed (s : State) (l : Fin 4) : (s.resumed l).lane l = (s.lane l).resumed := Table.get_set_self ..

theorem State.resumeLane_paused (paused : (s.lane l).state = .paused) (hk : (s.lane l).slot = some k) (hb : s.cues.get k = some b) :
    s.resumeLane l
      = (.ok, (if b.last then (s.resumed l).endRun l k 0 else (s.resumed l).fetch l b.link).runLane l) := by
  have block : (s.resumed l).currentBlock l = some (k, b) := State.currentBlock_eq (by rw [State.lane_resumed]; exact hk) hb
  unfold State.resumeLane
  rw [paused]
  dsimp only
  rw [show s.setLane l { s.lane l with notice := none, budget := 0 } = s.resumed l from rfl, block]

/-- The END notice of a run that ends at once. -/
def State.endPosts (s : State) (l : Fin 4) (k : Fin 256) : State :=
  s.post .laneIdle l.val 0 1 (eventValue (byte1 k.val) 0 (originCode (s.lane l).origin) (originBinding (s.lane l).origin))

theorem State.endPosts_oweReply (s : State) (l : Fin 4) (k : Fin 256) : s.oweReply.endPosts l k = (s.endPosts l k).oweReply :=
  State.post_oweReply ..

/-- A LAST block behind the pause: the lane enters IDLE and END is posted at once. -/
theorem State.resumed_stopLane (s : State) (l : Fin 4) (k : Fin 256) :
    (s.resumed l).stopLane l .runEnd k 0 ((s.resumed l).lane l).idled = (s.endPosts l k).setLane l (s.lane l).resumed.idled := by
  rw [State.stopLane_eq, if_pos rfl, State.lane_resumed, State.resumed, State.post_setLane, State.setLane_setLane]
  rfl

theorem State.resumeLane_ends (paused : (s.lane l).state = .paused) (hk : (s.lane l).slot = some k) (hb : s.cues.get k = some b)
    (last : b.last = true) (alone : (s.lane l).pendingStart = none) :
    s.resumeLane l = (.ok, (s.endPosts l k).setLane l (s.lane l).resumed.idled) := by
  rw [State.resumeLane_paused paused hk hb, if_pos last, State.endRun_alone (by rw [State.lane_resumed]; exact alone),
    State.resumed_stopLane, State.runLane_stands]
  rw [State.lane_setLane, if_pos rfl]
  exact LaneState.noConfusion

theorem State.resumeLane_restarts {p : PendingStart} (paused : (s.lane l).state = .paused) (hk : (s.lane l).slot = some k)
    (hb : s.cues.get k = some b) (last : b.last = true) (pending : (s.lane l).pendingStart = some p)
    (empty : s.cues.get p.entry = none) :
    s.resumeLane l = (.ok, (s.endPosts l k).setLane l ((s.lane l).resumed.idled.restarted p)) := by
  have lane : ((s.endPosts l k).setLane l (s.lane l).resumed.idled).lane l = (s.lane l).resumed.idled := Table.get_set_self ..
  have cues : ((s.endPosts l k).setLane l (s.lane l).resumed.idled).cues.get p.entry = none :=
    (congrArg (Table.get · p.entry) (State.cues_post ..)).trans empty
  rw [State.resumeLane_paused paused hk hb, if_pos last, State.endRun_restarts (by rw [State.lane_resumed]; exact pending),
    State.resumed_stopLane, State.beginRun_empty cues, lane, State.setLane_setLane, State.runLane_stands]
  · rfl
  · rw [State.lane_setLane, if_pos rfl]
    exact LaneState.noConfusion

theorem State.resumeLane_starves (paused : (s.lane l).state = .paused) (hk : (s.lane l).slot = some k)
    (hb : s.cues.get k = some b) (more : b.last = false) (empty : s.cues.get b.link = none) :
    s.resumeLane l = (.ok, s.setLane l ((s.lane l).resumed.starvedAt b.link)) := by
  rw [State.resumeLane_paused paused hk hb, if_neg (by simp [more]), State.fetch_empty (s := s.resumed l) empty,
    State.lane_resumed, State.resumed, State.setLane_setLane, State.runLane_stands]
  rw [State.lane_setLane, if_pos rfl]
  exact LaneState.noConfusion

end

/-! ### The three requests -/

/-- A lane request that its owner answers with a status alone. -/
theorem State.request_onLane {s t : State} {lane : Byte} {l : Fin 4} (hs : s.takesRequests) (hl : lane.toNat = l.val)
    {f : Fin 4 → Taking} {type : Byte} (ht : type.toNat < 0x80) (tag : Byte) {st : Status}
    (h : f l s.oweReply = (Answer.only st, t.oweReply)) :
    Host.Outcome.next (ρ := Refusal) (φ := Fault) (s.request tag type (onLane lane f))
      = .next (t.replying tag (type + 0x80) st []) :=
  State.request_answers hs ht tag ((onLane_good hl _).trans h)

section

variable {s t : State} {tag lane voices : Byte} {l : Fin 4} {st : Status}

theorem exec_lanePause (hs : s.takesRequests) (hl : lane.toNat = l.val) (h : s.oweReply.pauseRequest l = (st, t.oweReply)) :
    exec (.lanePause tag lane) s = .next (t.replying tag 0xA9 st []) :=
  State.request_onLane hs hl (type := 0x29) (by decide) tag
    (f := fun l s => (Answer.only (s.pauseRequest l).1, (s.pauseRequest l).2)) (by rw [h])

theorem exec_laneResume (hs : s.takesRequests) (hl : lane.toNat = l.val) (h : s.oweReply.resumeLane l = (st, t.oweReply)) :
    exec (.laneResume tag lane) s = .next (t.replying tag 0xAA st []) :=
  State.request_onLane hs hl (type := 0x2A) (by decide) tag
    (f := fun l s => (Answer.only (s.resumeLane l).1, (s.resumeLane l).2)) (by rw [h])

theorem exec_laneAbort (hs : s.takesRequests) (hl : lane.toNat = l.val) (hv : voices.toNat ≤ 1)
    (h : s.oweReply.abortLane l (yesNo voices) true = t.oweReply) :
    exec (.laneAbort tag lane voices) s = .next (t.replying tag 0xAB .ok []) :=
  State.request_onLane hs hl (type := 0x2B) (by decide) tag
    (f := fun l s => if 1 < voices.toNat then badField s 1 else (Answer.ok, s.abortLane l (yesNo voices) true))
    (by rw [if_neg (by omega), h]; rfl)

theorem exec_laneAbort_badVoices (hs : s.takesRequests) (hl : lane.toNat ≤ 3) (hv : 1 < voices.toNat) :
    exec (.laneAbort tag lane voices) s = .next (s.replying tag 0xAB .badField [1]) :=
  State.request_badField hs (type := 0x2B) (by decide) tag
    ((onLane_good (l := ⟨lane.toNat, by omega⟩) rfl _).trans (if_pos hv))

end

/-- The bytes 0 and 1 as an answer to a question (R172). -/
theorem yesNo_eq_one {b : Byte} (h : b.toNat ≤ 1) : yesNo b = decide (b = 1) := by
  unfold yesNo
  rw [decide_eq_decide]
  constructor
  · intro nonzero
    have : b.toNat ≠ 0 := fun e => nonzero (BitVec.eq_of_toNat_eq e)
    exact BitVec.eq_of_toNat_eq (by simp; omega)
  · rintro rfl
    decide

/-- LANE PAUSE by the state of the lane. -/
theorem lanePause_by_state {s : State} {tag lane : Byte} {l : Fin 4} (hs : s.takesRequests) (hl : lane.toNat = l.val) :
    (((s.lane l).state = .running ∨ (s.lane l).state = .starved
        ∨ ((s.lane l).state = .waiting ∧ ∀ o, (s.lane l).wait ≠ some (.start o))) →
      exec (.lanePause tag lane) s = .next ((s.setLane l { s.lane l with pauseRequested := true }).replying tag 0xA9 .ok []))
    ∧ ((s.lane l).state = .paused → exec (.lanePause tag lane) s = .next (s.replying tag 0xA9 .ok []))
    ∧ ((s.lane l).state = .idle ∨ (s.lane l).state = .faulted →
      exec (.lanePause tag lane) s = .next (s.replying tag 0xA9 .wrongState [])) :=
  ⟨fun h => exec_lanePause hs hl (State.pauseRequest_stands (s := s.oweReply) h),
    fun h => exec_lanePause hs hl (State.pauseRequest_paused (s := s.oweReply) h),
    fun h => exec_lanePause hs hl (State.pauseRequest_refused (s := s.oweReply) h)⟩

/-- LANE PAUSE gives a START wait up. -/
theorem exec_lanePause_givesUp {s : State} {tag lane : Byte} {l : Fin 4} {k : Fin 256} {b : CueBlock} {o : StartOrder}
    (hs : s.takesRequests) (hl : lane.toNat = l.val) (waiting : (s.lane l).state = .waiting)
    (wait : (s.lane l).wait = some (.start o)) (hk : (s.lane l).slot = some k) (hb : s.cues.get k = some b) :
    exec (.lanePause tag lane) s = .next (State.replying
      (s.stopsAt ((s.postStartFail l .noVoice k).noteBlock l k b) l .pause k b.quiet ((s.lane l).pausedAt k)) tag 0xA9 .ok []) := by
  refine exec_lanePause hs hl ((State.pauseRequest_givesUp (s := s.oweReply) waiting wait hk hb).trans ?_)
  have keeps : KeepsLanes s ((s.postStartFail l .noVoice k).noteBlock l k b) := ((KeepsLanes.refl s).post ..).noteBlock ..
  have failed : s.oweReply.postStartFail l .noVoice k = (s.postStartFail l .noVoice k).oweReply := State.post_oweReply ..
  have paused : ((s.lane l).pausedAt k).origin = (s.lane l).origin := rfl
  rw [failed, State.noteBlock_oweReply, State.stopLane_oweReply, State.lane_oweReply, keeps.stopLane paused]

/-- Settles O27: each request by the state of its lane, with the reply owed while the lane is acted on. -/
theorem lanePauseResumeAbort : Obligations.LanePauseResumeAbort := by
  unfold Obligations.LanePauseResumeAbort
  refine ⟨fun tag lane s hs => ⟨fun bad => ?_, fun l hl => ?_⟩, fun tag lane s hs => ⟨fun bad => ?_, fun l hl => ?_⟩,
    fun tag lane voices s hs => ⟨fun bad => ?_, fun hl hv => exec_laneAbort_badVoices hs hl hv, fun l hl hv => ?_⟩⟩
  · exact State.request_badField hs (type := 0x29) (by decide) tag (onLane_bad bad _)
  · obtain ⟨stands, paused, refused⟩ := lanePause_by_state (tag := tag) hs hl
    refine ⟨stands, paused, refused, fun o k b waiting wait hk hb _ => ?_⟩
    intro failed noted paused
    have noted_eq : (s.postStartFail l .noVoice k).noteBlock l k b = noted := rfl
    have paused_eq : (s.lane l).pausedAt k = paused := by
      unfold Lane.pausedAt
      rw [← hk]
    rw [exec_lanePause_givesUp hs hl waiting wait hk hb, noted_eq, paused_eq]
    rfl
  · exact State.request_badField hs (type := 0x2A) (by decide) tag (onLane_bad bad _)
  · refine ⟨fun h => exec_laneResume hs hl (State.resumeLane_refused (s := s.oweReply) h), fun k b paused hk hb => ?_⟩
    intro ended
    have lanes : ended.lanes = s.lanes := State.lanes_post ..
    have posted : s.oweReply.endPosts l k = ended.oweReply := State.endPosts_oweReply s l k
    have keeps (y : Lane) : ended.setLane l y = { ended with lanes := s.lanes.set l y } := by
      rw [← lanes]
      rfl
    refine ⟨fun last alone => ?_, fun p last pending empty => ?_, fun more empty => ?_⟩
    · rw [← keeps]
      refine exec_laneResume hs hl ((State.resumeLane_ends (s := s.oweReply) paused hk hb last alone).trans ?_)
      rw [posted]
      rfl
    · rw [← keeps]
      refine exec_laneResume hs hl ((State.resumeLane_restarts (s := s.oweReply) paused hk hb last pending empty).trans ?_)
      rw [posted]
      rfl
    · exact exec_laneResume hs hl (State.resumeLane_starves (s := s.oweReply) paused hk hb more empty)
  · exact State.request_badField hs (type := 0x2B) (by decide) tag (onLane_bad bad _)
  · intro x idle stopAt after notice
    have after_eq : s.aborted l (yesNo voices) = after := by
      rw [yesNo_eq_one hv]
      by_cases one : voices = 1
      · simp only [State.aborted, one, after]
        rfl
      · simp only [State.aborted, one, after]
        rfl
    have notice_eq (k : Option (Fin 256)) : s.abortPosts l (yesNo voices) k = notice k := by
      unfold State.abortPosts
      rw [after_eq]
    refine ⟨fun state unheld => ?_, fun n state held => ?_, fun state => ?_⟩
    · rw [← after_eq]
      refine exec_laneAbort hs hl hv ((State.abortLane_idle (s := s.oweReply) state unheld true).trans ?_)
      rw [State.aborted_oweReply]
    · rw [← notice_eq]
      refine exec_laneAbort hs hl hv ((State.abortLane_notice (s := s.oweReply) state held).trans ?_)
      rw [State.abortPosts_oweReply]
    · rw [← notice_eq]
      refine exec_laneAbort hs hl hv ((State.abortLane_busy (s := s.oweReply) state).trans ?_)
      rw [State.abortPosts_oweReply]
      rfl

end Sys2Proof.Machine
end

section
/-! PROOFS. A routed code with no lane waiting on it: the bindings that match it act in ascending number, each on its lane (R93, R105,
R108). -/

namespace Sys2Proof.Machine

/-! ### STOP reads no lane -/

section

variable (s : State) (l : Fin 4) (y : Lane)

theorem State.endFree_setLane {v : Fin 16} (h : (s.voice v).stands.isSome = true) (x : Sounding) (r : EndReason) :
    (s.setLane l y).endFree v x r = (s.endFree v x r).setLane l y := by
  rw [State.endFree_eq h, State.endFree_eq (s := s.setLane l y) h, State.releaseClaim_eq, State.releaseClaim_eq,
    State.noted_congr (s := s) (t := s.setLane l y) rfl rfl]
  rfl

theorem State.stopStart_setLane (v : Fin 16) (r : CutReason) : (s.setLane l y).stopStart v r = (s.stopStart v r).setLane l y := by
  unfold State.stopStart
  rw [State.voice_setLane]
  dsimp only
  cases h : (s.voice v).body with
  | held x w => exact State.endFree_setLane s l y (by simp [Voice.stands, h]) ..
  | _ => rfl

theorem State.cancelSuccessor_setLane (v : Fin 16) (r : EndReason) :
    (s.setLane l y).cancelSuccessor v r = (s.cancelSuccessor v r).setLane l y := by
  cases h : (s.voice v).body with
  | cutting x c z =>
    cases z with
    | none =>
      unfold State.cancelSuccessor
      rw [State.voice_setLane, h]
    | some z =>
      rw [State.cancelSuccessor_eq h, State.cancelSuccessor_eq (s := s.setLane l y) h, State.releaseClaim_eq,
        State.releaseClaim_eq, State.noted_congr (s := s) (t := s.setLane l y) rfl rfl]
      rfl
  | _ =>
    unfold State.cancelSuccessor
    rw [State.voice_setLane, h]

theorem State.opStop_setLane (h : Handle) : ((s.setLane l y).opStop h).2 = (s.opStop h).2.setLane l y := by
  have kind : (s.setLane l y).handleKind h = s.handleKind h := rfl
  unfold State.opStop
  rw [kind]
  cases s.handleKind h with
  | sounding => exact State.stopStart_setLane ..
  | awaiting => exact State.cancelSuccessor_setLane ..
  | _ => rfl

theorem State.stopHandle_setLane (handles : Table (Option Handle) 4) (i : Fin 4) :
    (s.setLane l y).stopHandle handles i = (s.stopHandle handles i).setLane l y := by
  unfold State.stopHandle
  split
  · rfl
  · exact State.opStop_setLane ..

theorem State.stopHandles_setLane (handles : Table (Option Handle) 4) :
    (s.setLane l y).stopHandles handles = (s.stopHandles handles).setLane l y := by
  simp only [State.stopHandles, State.stopHandle_setLane]

/-- What a start leaves of an abort with CUT: the stops. -/
theorem State.setLane_aborted : (s.aborted l true).setLane l y = (s.stopHandles (s.lane l).handles).setLane l y := by
  show State.setLane (State.stopHandles (s.setLane l _) _) l y = _
  rw [State.stopHandles_setLane, State.setLane_setLane]

end

theorem Moves.stopHandles (s : State) (handles : Table (Option Handle) 4) : Moves s (s.stopHandles handles) := by
  have one (u : State) (i : Fin 4) : Moves u (u.stopHandle handles i) := by
    unfold State.stopHandle
    split
    · exact refl u
    · exact opStop ..
  exact (((one s 0).trans (one _ 1)).trans (one _ 2)).trans (one _ 3)

/-! ### A binding start (R93) -/

/-- The context of a lane that a binding has started at an EMPTY entry slot (R76, R78). -/
def Binding.started (b : Binding) (i : Fin 32) (handles : Table (Option Handle) 4) : Lane :=
  { state := .starved, slot := some b.entry, origin := some (.binding i)
    handles := if b.clear then Table.const 4 none else handles
    rep := none, wait := none, pauseRequested := false, budget := 0, notice := none, pendingStart := none, fault := none }

section

variable {s : State} {i : Fin 32} {b : Binding}

theorem Binding.started_eq (b : Binding) (i : Fin 32) (x : Lane) :
    (x.prepared b.clear (.binding i)).starvedAt b.entry = b.started i x.handles := rfl

/-- The lane is free and the entry slot EMPTY. -/
theorem State.bindingStart_free (free : (s.lane b.lane).state = .idle ∨ (s.lane b.lane).state = .faulted)
    (empty : s.cues.get b.entry = none) :
    s.bindingStart i b = (.started, s.setLane b.lane (b.started i (s.lane b.lane).handles)) := by
  unfold State.bindingStart
  dsimp only
  rw [if_pos free, State.startLane_empty empty, Binding.started_eq]

variable (busy : ¬((s.lane b.lane).state = .idle ∨ (s.lane b.lane).state = .faulted))

include busy

theorem State.bindingStart_ignored (policy : b.policy = .ignore) : s.bindingStart i b = (.refused, s) := by
  unfold State.bindingStart
  dsimp only
  rw [if_neg busy, policy]

theorem State.bindingStart_full (policy : b.policy = .queue) (full : (s.lane b.lane).pendingStart.isSome = true) :
    s.bindingStart i b = (.refused, s) := by
  unfold State.bindingStart
  dsimp only
  rw [if_neg busy, policy]
  exact if_pos full

theorem State.bindingStart_queued (policy : b.policy = .queue) (room : (s.lane b.lane).pendingStart = none) :
    s.bindingStart i b
      = (.queued, s.setLane b.lane { s.lane b.lane with pendingStart := some ⟨i, b.entry, b.clear⟩ }) := by
  unfold State.bindingStart
  dsimp only
  rw [if_neg busy, policy]
  exact if_neg (by rw [room]; exact Bool.false_ne_true)

/-- RESTART stops the handles' starts and posts no notice. -/
theorem State.bindingStart_restarted (policy : b.policy = .restart) (empty : s.cues.get b.entry = none) :
    s.bindingStart i b = (.restarted,
      (s.stopHandles (s.lane b.lane).handles).setLane b.lane (b.started i (s.lane b.lane).handles)) := by
  have cues : (s.aborted b.lane true).cues.get b.entry = none :=
    (congrArg (Table.get · b.entry) (Moves.stopHandles (s.setLane b.lane _) _).untouched.cues).trans empty
  unfold State.bindingStart
  dsimp only
  rw [if_neg busy, policy]
  dsimp only
  rw [State.abortLane_silent, State.startLane_empty cues, State.setLane_aborted, State.lane_aborted]
  rfl

end

/-! ### A binding that acts (R108) -/

/-- A binding's holdoff is loaded. -/
def State.loadHoldoff (s : State) (i : Fin 32) : State :=
  s.setBinding i { s.binding i with holdoffLeft := (s.binding i).holdoff * 10 }

section

variable {s t : State} {i j : Fin 32} {c : Code}

theorem State.loadHoldoff_of {b : Binding} (h : s.binding i = b) :
    s.loadHoldoff i = s.setBinding i { b with holdoffLeft := b.holdoff * 10 } := by
  unfold State.loadHoldoff
  rw [h]

theorem State.bindingActs_heldOff (h : 0 < (s.binding i).holdoffLeft) : s.bindingActs i = s.counted 6 := by
  unfold State.bindingActs
  exact if_pos h

theorem State.bindingActs_refused (h : (s.binding i).holdoffLeft = 0)
    (start : (s.loadHoldoff i).bindingStart i (s.binding i) = (.refused, t)) : s.bindingActs i = t.counted 6 := by
  unfold State.bindingActs
  dsimp only
  rw [if_neg (by omega), ← State.loadHoldoff, start]
  rfl

theorem State.bindingActs_starts {a : BindingAnswer} (h : (s.binding i).holdoffLeft = 0)
    (start : (s.loadHoldoff i).bindingStart i (s.binding i) = (a, t)) (taken : a ≠ .refused) : s.bindingActs i = t := by
  unfold State.bindingActs
  dsimp only
  rw [if_neg (by omega), ← State.loadHoldoff, start]
  cases a with
  | refused => exact absurd rfl taken
  | _ => rfl

/-- The holdoff is loaded beside the lanes, the cue slots and the voices. -/
theorem State.bindingActs_free (due : (s.binding i).holdoffLeft = 0)
    (free : (s.lane (s.binding i).lane).state = .idle ∨ (s.lane (s.binding i).lane).state = .faulted)
    (empty : s.cues.get (s.binding i).entry = none) :
    s.bindingActs i = (s.loadHoldoff i).setLane (s.binding i).lane
      ((s.binding i).started i (s.lane (s.binding i).lane).handles) :=
  State.bindingActs_starts due (State.bindingStart_free (s := s.loadHoldoff i) free empty) BindingAnswer.noConfusion

section

variable (due : (s.binding i).holdoffLeft = 0)
  (busy : ¬((s.lane (s.binding i).lane).state = .idle ∨ (s.lane (s.binding i).lane).state = .faulted))

include due busy

theorem State.bindingActs_ignored (policy : (s.binding i).policy = .ignore) : s.bindingActs i = (s.loadHoldoff i).counted 6 :=
  State.bindingActs_refused due (State.bindingStart_ignored (s := s.loadHoldoff i) busy policy)

theorem State.bindingActs_full (policy : (s.binding i).policy = .queue)
    (full : (s.lane (s.binding i).lane).pendingStart.isSome = true) : s.bindingActs i = (s.loadHoldoff i).counted 6 :=
  State.bindingActs_refused due (State.bindingStart_full (s := s.loadHoldoff i) busy policy full)

theorem State.bindingActs_queued (policy : (s.binding i).policy = .queue)
    (room : (s.lane (s.binding i).lane).pendingStart = none) :
    s.bindingActs i = (s.loadHoldoff i).setLane (s.binding i).lane { s.lane (s.binding i).lane with
      pendingStart := some ⟨i, (s.binding i).entry, (s.binding i).clear⟩ } :=
  State.bindingActs_starts due (State.bindingStart_queued (s := s.loadHoldoff i) busy policy room) BindingAnswer.noConfusion

theorem State.bindingActs_restarted (policy : (s.binding i).policy = .restart) (empty : s.cues.get (s.binding i).entry = none) :
    s.bindingActs i = ((s.loadHoldoff i).stopHandles (s.lane (s.binding i).lane).handles).setLane (s.binding i).lane
      ((s.binding i).started i (s.lane (s.binding i).lane).handles) :=
  State.bindingActs_starts due (State.bindingStart_restarted (s := s.loadHoldoff i) busy policy empty) BindingAnswer.noConfusion

end

/-- A binding that acts touches no other binding, and nothing of its own but the holdoff. -/
theorem State.binding_bindingActs (s : State) (i j : Fin 32) :
    ∃ left, (s.bindingActs i).binding j = { s.binding j with holdoffLeft := left } := by
  have start := (Moves.bindingStart (s.loadHoldoff i) i (s.binding i)).untouched.trg
  have loaded : ∃ left, (s.loadHoldoff i).binding j = { s.binding j with holdoffLeft := left } := by
    unfold State.loadHoldoff
    rw [State.binding_setBinding]
    split
    · next e => subst e; exact ⟨_, rfl⟩
    · exact ⟨_, rfl⟩
  have same {u : State} (h : u.trg = (s.loadHoldoff i).trg) : ∃ left, u.binding j = { s.binding j with holdoffLeft := left } := by
    unfold State.binding
    rw [h]
    exact loaded
  unfold State.bindingActs
  dsimp only
  split
  · exact ⟨_, rfl⟩
  · rw [← State.loadHoldoff]
    split
    · next e => rw [e] at start; exact same start
    · next e => rw [e] at start; exact same start

theorem State.matches_bindingActs (s : State) (i j : Fin 32) (c : Code) :
    ((s.bindingActs i).binding j).matches c = (s.binding j).matches c := by
  obtain ⟨left, e⟩ := s.binding_bindingActs i j
  rw [e]
  rfl

/-! ### The bindings in turn (R105) -/

/-- The bindings that match a code, in ascending number. -/
def State.matching (s : State) (c : Code) : List (Fin 32) := allBindings.filter fun i => (s.binding i).matches c

/-- The bindings that match when the code is routed are those that act. -/
theorem State.fireBindings_eq (s : State) (c : Code) :
    s.fireBindings c = (!(s.matching c).isEmpty, (s.matching c).foldl State.bindingActs s) := by
  have turns (is : List (Fin 32)) (m : Bool) (t : State) (same : ∀ i, (t.binding i).matches c = (s.binding i).matches c) :
      is.foldl (fun (m, s) i => if (s.binding i).matches c then (true, s.bindingActs i) else (m, s)) (m, t)
        = (m || !(is.filter fun i => (s.binding i).matches c).isEmpty,
          (is.filter fun i => (s.binding i).matches c).foldl State.bindingActs t) := by
    induction is generalizing m t with
    | nil => simp
    | cons i is ih =>
      rw [List.foldl_cons]
      dsimp only
      rw [same]
      by_cases h : (s.binding i).matches c = true
      · rw [if_pos h, ih true _ fun j => (t.matches_bindingActs i j c).trans (same j), List.filter_cons_of_pos (by exact h)]
        simp
      · rw [if_neg h, ih m t same, List.filter_cons_of_neg (by exact h)]
  exact turns allBindings false s fun _ => rfl

/-- The matching bindings, listed in ascending number. -/
theorem State.matching_eq {is : List (Fin 32)} (ascending : is.Pairwise (· < ·))
    (h : ∀ i : Fin 32, (s.binding i).enabled = true ∧ (s.binding i).code = c ↔ i ∈ is) : s.matching c = is := by
  have sorted : allBindings.Pairwise (· < ·) := by decide
  have all (i : Fin 32) : i ∈ allBindings := (by decide : ∀ i : Fin 32, i ∈ allBindings) i
  refine List.Pairwise.eq_of_mem_iff (sorted.filter _) ascending fun i => ?_
  unfold State.matching
  rw [List.mem_filter, ← h]
  simp [all, Binding.matches]

theorem State.reportCode_none (h : ∀ l : Fin 4, (s.lane l).wait ≠ some (.code c)) : s.reportCode c = (0, s) := by
  have lanes : (allLanes.filter fun l => (s.lane l).waitsOnCode c) = [] :=
    List.filter_eq_nil_iff.2 fun l _ => by simpa [Lane.waitsOnCode] using h l
  unfold State.reportCode
  rw [lanes]
  rfl

/-- A code on which bindings act is not counted as unbound (R105). -/
theorem State.routeCode_matched {n : Nat} {t u : State} (report : s.trg.report ≠ .all) (reported : s.reportCode c = (n, t))
    (fired : t.fireBindings c = (true, u)) : s.routeCode c = u := by
  unfold State.routeCode
  rw [if_neg report]
  extract_lets v
  have same : v = s := rfl
  clear_value v
  subst same
  split
  next woken w woke =>
  cases reported.symm.trans woke
  split
  next matched w acted =>
  cases fired.symm.trans acted
  exact if_neg fun h => Bool.noConfusion h.2

/-- A code that no lane waits on and some bindings match: they act in turn. -/
theorem State.routeCode_bindings {is : List (Fin 32)} (report : s.trg.report ≠ .all)
    (unheard : ∀ l : Fin 4, (s.lane l).wait ≠ some (.code c)) (matching : s.matching c = is) (matched : is ≠ []) :
    s.routeCode c = is.foldl State.bindingActs s := by
  refine State.routeCode_matched report (State.reportCode_none unheard) ?_
  rw [State.fireBindings_eq, matching]
  cases is with
  | nil => exact absurd rfl matched
  | cons => rfl

end

theorem KeepsLanes.stopHandles (s : State) (handles : Table (Option Handle) 4) : KeepsLanes s (s.stopHandles handles) :=
  .of_apart (Moves.stopHandles ..) (Apart.stopHandles ..)

/-- Settles O51: with no lane waiting, the matching bindings act in turn on the state whose frame is taken; each finds its lane as the
bindings before it left it. -/
theorem bindingActsOnItsCode : Obligations.BindingActsOnItsCode := by
  unfold Obligations.BindingActsOnItsCode
  intro c e last s rx taken bytes crc filter report unheard run hunts loaded started stopAt cut
  have routed {is : List (Fin 32)} (ascending : is.Pairwise (· < ·)) (matched : is ≠ [])
      (h : ∀ n : Fin 32, (s.binding n).enabled = true ∧ (s.binding n).code = c ↔ n ∈ is) :
      run = .next (is.foldl State.bindingActs s.frameTaken) := by
    have quiet : s.frameTaken.trg.report ≠ .all := fun all => Report.noConfusion (report.symm.trans all)
    refine (exec_triggerFrameComplete rx taken bytes crc filter).trans ?_
    rw [State.routeCode_bindings (s := s.frameTaken) quiet unheard (State.matching_eq ascending h) matched]
  constructor
  · intro i only b x acted
    have acts {t : State} (h : s.frameTaken.bindingActs i = t) : run = .next t :=
      (routed (List.pairwise_singleton ..) (List.cons_ne_nil i []) fun n => (only n).trans List.mem_singleton.symm).trans
        (congrArg _ h)
    refine ⟨fun held => acts (State.bindingActs_heldOff (s := s.frameTaken) held),
      fun due free empty => acts (State.bindingActs_free (s := s.frameTaken) due free empty), fun due idle faulted => ?_⟩
    have busy : ¬(x.state = .idle ∨ x.state = .faulted) := not_or.2 ⟨idle, faulted⟩
    refine ⟨fun policy => acts (State.bindingActs_ignored (s := s.frameTaken) due busy policy),
      fun policy full => acts (State.bindingActs_full (s := s.frameTaken) due busy policy full),
      fun policy room => acts (State.bindingActs_queued (s := s.frameTaken) due busy policy room), fun policy empty => acts ?_⟩
    exact (State.bindingActs_restarted (s := s.frameTaken) due busy policy empty).trans
      ((KeepsLanes.stopHandles acted x.handles).setLane b.lane (started i x.handles))
  · intro i j lower pair b d x acted first due dueToo free empty
    have acts {u : State} (h : (s.frameTaken.bindingActs i).bindingActs j = u) : run = .next u :=
      (routed (is := [i, j]) (by simpa using lower) (List.cons_ne_nil i [j]) fun n => (pair n).trans (by simp)).trans
        (congrArg _ h)
    have firstActs : s.frameTaken.bindingActs i = (s.frameTaken.loadHoldoff i).setLane b.lane first :=
      State.bindingActs_free (s := s.frameTaken) due free empty
    rw [firstActs] at acts
    have second : ((s.frameTaken.loadHoldoff i).setLane b.lane first).binding j = d := Table.get_set_of_ne _ lower.ne _
    have begun : ((s.frameTaken.loadHoldoff i).setLane b.lane first).lane b.lane = first := Table.get_set_self ..
    have other (apart : d.lane ≠ b.lane) : ((s.frameTaken.loadHoldoff i).setLane b.lane first).lane d.lane = s.lane d.lane :=
      Table.get_set_of_ne _ apart.symm _
    have both : ((s.frameTaken.loadHoldoff i).setLane b.lane first).loadHoldoff j = acted.setLane b.lane first :=
      State.loadHoldoff_of second
    have cues : ((s.frameTaken.loadHoldoff i).setLane b.lane first).cues = s.cues := rfl
    generalize (s.frameTaken.loadHoldoff i).setLane b.lane first = t at acts second begun other both cues
    have dueSecond : (t.binding j).holdoffLeft = 0 := by rw [second]; exact dueToo
    refine ⟨fun apart freeToo emptyToo => ?_, fun same => ?_⟩
    · have started := State.bindingActs_free dueSecond (by rw [second, other apart]; exact freeToo)
        (by rw [second, cues]; exact emptyToo)
      rw [second, both, other apart] at started
      exact acts started
    · have busy : ¬((t.lane (t.binding j).lane).state = .idle ∨ (t.lane (t.binding j).lane).state = .faulted) := by
        rw [second, same, begun]
        simp [first, started]
      refine ⟨fun policy => ?_, fun policy => ?_, fun policy emptyToo => ?_⟩
      · have ignored := State.bindingActs_ignored dueSecond busy (by rw [second]; exact policy)
        rw [both] at ignored
        exact acts ignored
      · have queued := State.bindingActs_queued dueSecond busy (by rw [second]; exact policy) (by rw [second, same, begun])
        rw [second, both, same, begun, State.setLane_setLane] at queued
        exact acts queued
      · have restarted := State.bindingActs_restarted dueSecond busy (by rw [second]; exact policy)
          (by rw [second, cues]; exact emptyToo)
        rw [second, both, same, begun, State.stopHandles_setLane, State.setLane_setLane,
          (KeepsLanes.stopHandles acted first.handles).setLane] at restarted
        exact acts restarted

end Sys2Proof.Machine
end

section
/-! PROOFS. A tick that only counts down: the lanes, the holdoffs and the store step (R83, R91, R109, R128, R137, R138). -/

namespace Sys2Proof.Machine

/-! ### A lane that only counts (R83, R91) -/

/-- The lane's next tick ends neither its wait nor its notice. -/
structure Lane.Counts (x : Lane) : Prop where
  wait : ∀ t, x.wait = some (.time t) → 1 < t
  notice : ∀ n, (∀ t, x.wait ≠ some (.time t)) → x.notice = some n → 1 < n.msLeft

/-- A lane after a tick that only counts. -/
def Lane.countedDown (x : Lane) : Lane :=
  match x.wait with
  | some (.time t) => { x with wait := some (.time (t - 1)) }
  | _ => match x.notice with
    | some n => { x with notice := some { n with msLeft := n.msLeft - 1 } }
    | none => x

section

variable {x : Lane}

theorem Lane.waitEndsNext_eq_false (h : ∀ t, x.wait = some (.time t) → 1 < t) : x.waitEndsNext = false := by
  unfold Lane.waitEndsNext
  split
  · next t e => exact decide_eq_false (Nat.not_le.2 (h t e))
  · rfl

theorem Lane.Counts.waitEndsNext (h : x.Counts) : x.waitEndsNext = false := Lane.waitEndsNext_eq_false h.wait

theorem Lane.noticeEndsNext_eq_false (h : x.notice = none) : x.noticeEndsNext = false := by
  unfold Lane.noticeEndsNext
  split
  · rfl
  · next e _ => exact absurd (h.symm.trans e) nofun
  · rfl

theorem Lane.takesTicks_of_wait {t : Nat} (h : x.wait = some (.time t)) : x.takesTicks = true := by
  unfold Lane.takesTicks
  rw [h]

theorem Lane.takesTicks_of_notice {n : Notice} (h : x.notice = some n) : x.takesTicks = true := by
  unfold Lane.takesTicks
  rw [h]
  split <;> trivial

theorem Lane.countedDown_wait {t : Nat} (h : x.wait = some (.time t)) :
    x.countedDown = { x with wait := some (.time (t - 1)) } := by
  unfold Lane.countedDown
  rw [h]

section

variable (h : ∀ t, x.wait ≠ some (.time t))

include h

theorem Lane.countedDown_notice {n : Notice} (held : x.notice = some n) :
    x.countedDown = { x with notice := some { n with msLeft := n.msLeft - 1 } } := by
  unfold Lane.countedDown
  split
  · next t e => exact absurd e (h t)
  · rw [held]

theorem Lane.countedDown_none (held : x.notice = none) : x.countedDown = x := by
  unfold Lane.countedDown
  split
  · next t e => exact absurd e (h t)
  · rw [held]

end

/-- A lane that no tick changes. -/
theorem Lane.countedDown_of_not_takesTicks (h : x.takesTicks = false) : x.countedDown = x := by
  refine Lane.countedDown_none (fun t e => ?_) (Option.eq_none_iff_forall_ne_some.2 fun n e => ?_)
  · rw [Lane.takesTicks_of_wait e] at h
    exact Bool.noConfusion h
  · rw [Lane.takesTicks_of_notice e] at h
    exact Bool.noConfusion h

end

section

variable {s : State} {l : Fin 4}

theorem State.tickLane_counts (h : (s.lane l).Counts) : s.tickLane l = s.setLane l (s.lane l).countedDown := by
  unfold State.tickLane
  dsimp only
  split
  · next t e => rw [if_neg (Nat.not_le.2 (h.wait t e)), Lane.countedDown_wait e]
  · next other =>
    split
    · next e => rw [Lane.countedDown_none other e, State.setLane_lane rfl]
    · next n e => rw [if_neg (Nat.not_le.2 (h.notice n other e)), Lane.countedDown_notice other e]

theorem State.tickInTurn_cons_counts (h : (s.lane l).Counts) (ls : List (Fin 4)) :
    s.tickInTurn (l :: ls) = (s.setLane l (s.lane l).countedDown).tickInTurn ls := by
  rw [← State.tickLane_counts h]
  cases ls with
  | nil =>
    unfold State.tickInTurn
    rw [h.waitEndsNext]
    rfl
  | cons j ls =>
    conv => lhs; unfold State.tickInTurn
    rw [h.waitEndsNext]
    rfl

/-- Lanes that only count, in turn: the part but for those lanes is as it was. -/
theorem State.tickInTurn_counts {ls : List (Fin 4)} (distinct : ls.Nodup) (counts : ∀ l ∈ ls, (s.lane l).Counts) :
    ∃ lanes, s.tickInTurn ls = { s with lanes := lanes }
      ∧ ∀ j, lanes.get j = if j ∈ ls then (s.lane j).countedDown else s.lane j := by
  induction ls generalizing s with
  | nil => exact ⟨s.lanes, rfl, fun j => (if_neg List.not_mem_nil).symm⟩
  | cons l ls ih =>
    obtain ⟨fresh, distinct⟩ := List.nodup_cons.1 distinct
    have kept (j : Fin 4) (h : l ≠ j) : (s.setLane l (s.lane l).countedDown).lane j = s.lane j := by
      rw [State.lane_setLane, if_neg h]
    obtain ⟨lanes, run, result⟩ := ih (s := s.setLane l (s.lane l).countedDown) distinct fun j hj => by
      rw [kept j fun e => fresh (e ▸ hj)]
      exact counts j (List.mem_cons_of_mem l hj)
    refine ⟨lanes, (State.tickInTurn_cons_counts (counts l List.mem_cons_self) ls).trans run, fun j => (result j).trans ?_⟩
    by_cases h : l = j
    · subst h
      rw [if_neg fresh, if_pos List.mem_cons_self, State.lane_setLane, if_pos rfl]
    · rw [kept j h]
      exact if_congr (by simp [Ne.symm h]) rfl rfl

/-! ### The lanes that a tick changes -/

theorem State.mem_tickTurns {last : Nat} {j : Fin 4} : j ∈ s.tickTurns last ↔
    (s.progress.lanes ≤ j.val ∧ j.val ≤ last) ∧ (s.lane j).takesTicks = true := by
  unfold State.tickTurns
  rw [List.mem_filter, Bool.and_eq_true, decide_eq_true_eq]
  exact and_iff_right (mem_allLanes j)

theorem State.pairwise_tickTurns (s : State) (last : Nat) : (s.tickTurns last).Pairwise (· < ·) :=
  (by decide : allLanes.Pairwise (· < ·)).filter _

theorem State.nodup_tickTurns (s : State) (last : Nat) : (s.tickTurns last).Nodup := (s.pairwise_tickTurns last).imp ne_of_lt

/-- With no lane RUNNING none has to run on before the tick goes on. -/
theorem State.settleTicked_stands (h : ∀ j : Fin 4, (s.lane j).state ≠ .running) : s.settleTicked = s := by
  unfold State.settleTicked
  split
  · rfl
  · exact State.settle_stands (h _) _

/-- Before any lane has taken the tick none runs on. -/
theorem State.settleTicked_first (h : s.progress.lanes = 0) : s.settleTicked = s := by
  have unset : (allLanes.find? fun l => decide (s.progress.lanes = l.val + 1)) = none :=
    List.find?_eq_none.2 fun l _ => by simp [h]
  unfold State.settleTicked
  rw [unset]

theorem State.lanesThrough_eq (settled : s.settleTicked = s) (last : Nat) : s.lanesThrough last = s.tickInTurn (s.tickTurns last) := by
  unfold State.lanesThrough
  split
  · next e => rw [e]; rfl
  · next e => rw [e, settled]

/-- Every lane takes a tick that only counts. -/
theorem State.lanesThrough_counts (h : s.progress.lanes = 0) (counts : ∀ l, (s.lane l).Counts) :
    s.lanesThrough 3 = { s with lanes := s.lanes.map Lane.countedDown } := by
  obtain ⟨lanes, run, result⟩ := State.tickInTurn_counts (s.nodup_tickTurns 3) fun l _ => counts l
  have all : lanes = s.lanes.map Lane.countedDown := by
    refine Table.ext_get fun j => (result j).trans ?_
    rw [Table.get_map]
    split
    · rfl
    · next other =>
      have idle : (s.lane j).takesTicks = false := by
        rw [State.mem_tickTurns] at other
        exact Bool.eq_false_of_not_eq_true fun takes => other ⟨⟨by omega, by omega⟩, takes⟩
      exact (Lane.countedDown_of_not_takesTicks idle).symm
  rw [State.lanesThrough_eq (State.settleTicked_first h), run, all]

/-! ### The tick (R137, R138) -/

/-- The millisecond count at a tick, unless NRST holds it. -/
theorem State.countShare_eq (h : s.progress.count = false) :
    s.countShare = { s with out := { s.out with msCount := if s.nrst then s.out.msCount else s.out.msCount + 1 } } := by
  unfold State.countShare
  rw [h, Bool.false_or]
  by_cases held : s.nrst = true
  · rw [if_pos held, if_pos held]
  · rw [if_neg held, if_neg held]

/-- A store step with time left. -/
theorem State.tickStore_counts (h : ∀ r, s.op = some r → 1 < r.limitLeft) :
    s.tickStore = { s with op := s.op.map fun r => { r with limitLeft := r.limitLeft - 1 } } := by
  unfold State.tickStore
  split
  · next e => rw [e, Option.map_none, ← e]
  · next r e => rw [e]; exact if_neg (Nat.not_le.2 (h r e))

/-- TRG's and STO's shares of a tick that only counts. -/
theorem State.tickBlocks_counts (holdoffs : s.progress.holdoffs = false) (store : s.progress.store = false)
    (limit : ∀ r, s.op = some r → 1 < r.limitLeft) :
    s.holdoffShare.storeShare = { s with
      trg := { s.trg with bindings := s.trg.bindings.map fun b => { b with holdoffLeft := b.holdoffLeft - 1 } }
      op := s.op.map fun r => { r with limitLeft := r.limitLeft - 1 } } := by
  have held : s.holdoffShare = s.tickHoldoffs := if_neg (by rw [holdoffs]; exact Bool.false_ne_true)
  have stored : s.tickHoldoffs.storeShare = s.tickHoldoffs.tickStore :=
    if_neg (by rw [State.tickHoldoffs, store]; exact Bool.false_ne_true)
  rw [held, stored, State.tickStore_counts (s := s.tickHoldoffs) limit]
  rfl

theorem State.tickComes_of_sub (h : 32 ≤ s.out.frameSub + 1) : s.tickComes = true := decide_eq_true h

theorem exec_msTick (on : s.power = true) (h : 32 ≤ s.out.frameSub + 1) :
    exec .msTick s = .next { s.tickRest with progress := s.progress.ticked } := by
  show Host.Outcome.next s.tickAhead = _
  unfold State.tickAhead
  rw [on, State.tickComes_of_sub h]
  rfl

end

/-- Settles O47: the count, the lanes, the holdoffs and the store step count one after the other, each beside the others. -/
theorem tickCountsEverythingDown : Obligations.TickCountsEverythingDown := by
  unfold Obligations.TickCountsEverythingDown
  intro s on count lanes holdoffs store
  refine ⟨fun early => ?_, fun tick counting limit => ?_⟩
  · have untimely : s.tickComes = false := decide_eq_false (Nat.not_le.2 early)
    show Host.Outcome.next s.tickAhead = _
    unfold State.tickAhead
    rw [untimely, Bool.and_false]
    rfl
  · have counts (l : Fin 4) : (s.lane l).Counts := ⟨(counting l).1, (counting l).2⟩
    have ticked : s.countShare.lanesThrough 3 = { s with
        out := { s.out with msCount := if s.nrst then s.out.msCount else s.out.msCount + 1 }
        lanes := s.lanes.map Lane.countedDown } := by
      rw [State.countShare_eq count, State.lanesThrough_counts (by exact lanes) (by exact counts)]
    have lane : Lane.countedDown = fun (x : Lane) => match x.wait, x.notice with
        | some (.time t), _ => { x with wait := some (.time (t - 1)) }
        | _, some n => { x with notice := some { n with msLeft := n.msLeft - 1 } }
        | _, none => x := by
      funext x
      rcases hw : x.wait with _ | _ | _ | _ | _ <;> cases hn : x.notice <;> simp only [Lane.countedDown, hw, hn]
    rw [exec_msTick on tick, State.tickRest, ticked, State.tickBlocks_counts (by exact holdoffs) (by exact store) (by exact limit),
      lane]
    rfl

end Sys2Proof.Machine
end

section
/-! PROOFS. A tick that ends a lane's wait or its notice, taken ahead or in its frame: what the lane comes to, and that the lanes behind
it are taken after it (R83, R91, R109, R137, R138). -/

namespace Sys2Proof.Machine

/-! ### The frame's work before its tick (log 4) -/

/-- What the voices, the mix and the gap counts leave to the tick as it was. -/
structure SameTick (s t : State) : Prop where
  lanes : t.lanes = s.lanes
  cues : t.cues = s.cues
  openings : t.openings = s.openings
  progress : t.progress = s.progress
  sub : t.out.frameSub = s.out.frameSub

namespace SameTick

variable {s t u : State}

theorem trans (h : SameTick s t) (k : SameTick t u) : SameTick s u :=
  ⟨k.lanes.trans h.lanes, k.cues.trans h.cues, k.openings.trans h.openings, k.progress.trans h.progress, k.sub.trans h.sub⟩

theorem link (s : State) (x : Lnk) : SameTick s { s with lnk := x } := ⟨rfl, rfl, rfl, rfl, rfl⟩

theorem trigger (s : State) (x : Trg) : SameTick s { s with trg := x } := ⟨rfl, rfl, rfl, rfl, rfl⟩

theorem raise (s : State) (k : Tally) : SameTick s (s.raise k) := ⟨rfl, rfl, rfl, rfl, rfl⟩

theorem voicesThrough (s : State) (last : Nat) : SameTick s (s.voicesThrough last) := by
  have apart := Apart.voicesThrough s last
  have moves : Moves s (s.voicesThrough last) := by
    rw [State.voicesThrough_eq]
    exact Moves.foldl _ Moves.voiceFrame ..
  exact ⟨apart.lanes, moves.untouched.cues, apart.openings, moves.untouched.progress, by rw [State.out_voicesThrough]⟩

theorem mixFrame (s : State) : SameTick s s.mixFrame := by
  have mixed : SameTick s { s with out := s.mixedOut } := ⟨rfl, rfl, rfl, rfl, State.frameSub_mixedOut s⟩
  rw [State.mixFrame_eq]
  split
  · exact mixed.trans (raise ..)
  · exact mixed

theorem hostGapShare (s : State) : SameTick s s.hostGapShare := by
  unfold State.hostGapShare State.hostGapFrame
  split
  · exact link ..
  · split
    · split
      · exact (link ..).trans (raise ..)
      · exact link ..
    · exact link ..

theorem trigGapShare (s : State) : SameTick s s.trigGapShare := by
  unfold State.trigGapShare State.trigGapFrame
  split
  · exact trigger ..
  · split
    · split
      · exact (trigger ..).trans (raise ..)
      · exact trigger ..
    · exact trigger ..

/-- The frame's work up to its tick. -/
theorem beforeTick (s : State) : SameTick s (((s.voicesThrough 15).mixFrame.hostGapShare).trigGapShare) :=
  (((voicesThrough s 15).trans (mixFrame _)).trans (hostGapShare _)).trans (trigGapShare _)

/-- The count's share of a tick. -/
theorem countShare (s : State) : SameTick s s.countShare := by
  unfold State.countShare
  split <;> exact ⟨rfl, rfl, rfl, rfl, rfl⟩

theorem lane (h : SameTick s t) (j : Fin 4) : t.lane j = s.lane j := by
  unfold State.lane
  rw [h.lanes]

end SameTick

/-! ### What the tick's other shares leave alone -/

section

variable {s : State} {l : Fin 4}

theorem State.openings_endStep (s : State) (r : OpRecord) (result : StoreResult) : (s.endStep r result).openings = s.openings := by
  unfold State.endStep
  dsimp only
  split
  · rfl
  · split
    · rfl
    · exact State.openings_post ..

theorem State.openings_storeShare (s : State) : s.storeShare.openings = s.openings := by
  unfold State.storeShare State.tickStore
  split
  · rfl
  · split
    · rfl
    · split
      · unfold State.stepTimesOut
        split
        · rfl
        · exact State.openings_endStep ..
      · rfl

theorem State.openings_holdoffShare (s : State) : s.holdoffShare.openings = s.openings := by
  unfold State.holdoffShare
  split <;> rfl

/-- The lanes and the openings after a tick are those that the lanes' share leaves. -/
theorem State.lane_tickRest (s : State) (j : Fin 4) : s.tickRest.lane j = (s.countShare.lanesThrough 3).lane j := by
  unfold State.lane State.tickRest
  rw [(Aside.storeShare _).lanes, (Aside.holdoffShare _).lanes]

theorem State.openings_tickRest (s : State) : s.tickRest.openings = (s.countShare.lanesThrough 3).openings := by
  unfold State.tickRest
  rw [State.openings_storeShare, State.openings_holdoffShare]

/-- The end of a frame that brings a tick. -/
theorem State.endFrame_tick (comes : s.tickComes = true) :
    (∀ j, s.endFrame.lane j = s.tickRest.lane j) ∧ s.endFrame.openings = s.tickRest.openings := by
  unfold State.endFrame
  rw [if_pos comes]
  exact ⟨fun _ => rfl, rfl⟩

/-- The frame that brings a tick (R137). -/
theorem exec_frame_tick (on : s.power = true) (sub : s.out.frameSub = 31) :
    ∃ u, SameTick s u ∧ ∃ t, exec .frame s = .next t
      ∧ (∀ j, t.lane j = u.tickRest.lane j) ∧ t.openings = u.tickRest.openings := by
  have before := SameTick.beforeTick s
  refine ⟨_, before, _, exec_frame on, ?_⟩
  exact State.endFrame_tick (State.tickComes_of_sub (by rw [before.sub, sub]))

/-! ### The lane that the tick comes to first -/

/-- The tick comes to lane l, no lane is RUNNING, and the lanes behind l only count. -/
structure State.TickReaches (s : State) (l : Fin 4) : Prop where
  lanes : s.progress.lanes = l.val
  stand : ∀ j : Fin 4, (s.lane j).state ≠ .running
  behind : ∀ j : Fin 4, l < j → (s.lane j).Counts

theorem State.TickReaches.same {t : State} (h : s.TickReaches l) (same : SameTick s t) : t.TickReaches l where
  lanes := by rw [same.progress]; exact h.lanes
  stand j := by rw [same.lane]; exact h.stand j
  behind j hj := by rw [same.lane]; exact h.behind j hj

/-- A strictly ascending list begins with its least member. -/
theorem eq_cons_of_least {ls : List (Fin 4)} (ascending : ls.Pairwise (· < ·)) (mem : l ∈ ls) (least : ∀ j ∈ ls, l ≤ j) :
    ∃ rest, ls = l :: rest ∧ rest.Nodup ∧ ∀ j, j ∈ rest ↔ l < j ∧ j ∈ ls := by
  cases ls with
  | nil => exact absurd mem List.not_mem_nil
  | cons i rest =>
    obtain ⟨above, ascending⟩ := List.pairwise_cons.1 ascending
    have first : i = l := by
      rcases List.mem_cons.1 mem with e | e
      · exact e.symm
      · exact absurd (above l e) (not_lt.2 (least i List.mem_cons_self))
    subst first
    refine ⟨rest, rfl, ascending.imp ne_of_lt, fun j => ⟨fun hj => ⟨above j hj, List.mem_cons_of_mem _ hj⟩, ?_⟩⟩
    rintro ⟨hj, mem⟩
    exact (List.mem_cons.1 mem).resolve_left hj.ne'

/-- The lanes that the tick still changes, where the first of them is l. -/
theorem State.tickTurns_first (h : s.progress.lanes = l.val) {last : Nat} (le : l.val ≤ last) (takes : (s.lane l).takesTicks = true) :
    ∃ rest, s.tickTurns last = l :: rest ∧ rest.Nodup
      ∧ ∀ j, j ∈ rest ↔ l < j ∧ j.val ≤ last ∧ (s.lane j).takesTicks = true := by
  obtain ⟨rest, turns, distinct, mem⟩ := eq_cons_of_least (l := l) (s.pairwise_tickTurns last)
    (State.mem_tickTurns.2 ⟨⟨h.le, le⟩, takes⟩) fun j hj => by
      have := (State.mem_tickTurns.1 hj).1.1
      exact Fin.le_def.2 (h ▸ this)
  refine ⟨rest, turns, distinct, fun j => (mem j).trans ?_⟩
  rw [State.mem_tickTurns, h]
  exact ⟨fun ⟨lt, ⟨_, le⟩, takes⟩ => ⟨lt, le, takes⟩, fun ⟨lt, le, takes⟩ => ⟨lt, ⟨lt.le, le⟩, takes⟩⟩

/-- Lane l has had its turn: its context is y, and the other lanes and the openings are as they were. -/
structure TickTurn (l : Fin 4) (y : Lane) (u v : State) : Prop where
  lane : v.lane l = y
  others : OnlyLane l u v
  openings : v.openings = u.openings

/-- The turn of lane l makes y of its context, whatever stands beside the lanes and the cue slots, where the lanes that the tick
changes behind it are taken next. -/
def State.TicksTo (s : State) (l : Fin 4) (y : Lane) : Prop :=
  ∀ (u : State) (rest : List (Fin 4)), u.lanes = s.lanes → u.cues = s.cues →
    (∀ j, j ∈ rest ↔ l < j ∧ (s.lane j).takesTicks = true) →
    ∃ v, TickTurn l y u v ∧ u.tickInTurn (l :: rest) = v.tickInTurn rest

/-- The lanes behind l that only count leave l and the openings as they were. -/
theorem TickTurn.behind {u v : State} {y : Lane} (turn : TickTurn l y u v) {rest : List (Fin 4)} (distinct : rest.Nodup)
    (above : ∀ j ∈ rest, l < j) (counts : ∀ j, l < j → (u.lane j).Counts) :
    (v.tickInTurn rest).lane l = y ∧ (v.tickInTurn rest).openings = u.openings := by
  obtain ⟨lanes, run, result⟩ := State.tickInTurn_counts distinct fun j hj => by
    rw [turn.others j (above j hj).ne]
    exact counts j (above j hj)
  rw [run]
  refine ⟨(result l).trans ?_, turn.openings⟩
  rw [if_neg fun hl => (lt_irrefl l) (above l hl)]
  exact turn.lane

/-- The lanes' share of a tick that reaches l. -/
theorem State.TickReaches.lanesThrough {y : Lane} (h : s.TickReaches l) (takes : (s.lane l).takesTicks = true)
    (ticks : s.TicksTo l y) : (s.lanesThrough 3).lane l = y ∧ (s.lanesThrough 3).openings = s.openings := by
  obtain ⟨rest, turns, distinct, mem⟩ := State.tickTurns_first h.lanes (by omega : l.val ≤ 3) takes
  have mem (j : Fin 4) : j ∈ rest ↔ l < j ∧ (s.lane j).takesTicks = true :=
    (mem j).trans (and_congr_right fun _ => and_iff_right (by omega))
  obtain ⟨v, turn, run⟩ := ticks s rest rfl rfl mem
  rw [State.lanesThrough_eq (State.settleTicked_stands h.stand), turns, run]
  exact turn.behind distinct (fun j hj => ((mem j).1 hj).1) h.behind

theorem State.TickReaches.tickRest {y : Lane} (h : s.TickReaches l) (takes : (s.lane l).takesTicks = true) (ticks : s.TicksTo l y) :
    s.tickRest.lane l = y ∧ s.tickRest.openings = s.openings := by
  have same := SameTick.countShare s
  have ticks : s.countShare.TicksTo l y := fun u rest lanes cues mem =>
    ticks u rest (lanes.trans same.lanes) (cues.trans same.cues) fun j => by rw [mem, same.lane]
  rw [State.lane_tickRest, State.openings_tickRest, ← same.openings]
  exact (h.same same).lanesThrough (by rw [same.lane]; exact takes) ticks

/-- The tick, as a command of its own. -/
theorem State.TickReaches.msTick {y : Lane} (h : s.TickReaches l) (on : s.power = true) (sub : s.out.frameSub = 31)
    (takes : (s.lane l).takesTicks = true) (ticks : s.TicksTo l y) :
    ∃ u, exec .msTick s = .next u ∧ u.lane l = y ∧ u.openings = s.openings :=
  ⟨_, exec_msTick on (by omega), h.tickRest takes ticks⟩

/-- The tick that the 32nd frame makes. -/
theorem State.TickReaches.frame {y : Lane} (h : s.TickReaches l) (on : s.power = true) (sub : s.out.frameSub = 31)
    (takes : (s.lane l).takesTicks = true) (ticks : s.TicksTo l y) :
    ∃ u, exec .frame s = .next u ∧ u.lane l = y ∧ u.openings = s.openings := by
  obtain ⟨u, same, t, run, lanes, openings⟩ := exec_frame_tick on sub
  have ticks : u.TicksTo l y := fun v rest lanes cues mem =>
    ticks v rest (lanes.trans same.lanes) (cues.trans same.cues) fun j => by rw [mem, same.lane]
  obtain ⟨lane, kept⟩ := (h.same same).tickRest (by rw [same.lane]; exact takes) ticks
  exact ⟨t, run, (lanes l).trans lane, openings.trans (kept.trans same.openings)⟩

end

end Sys2Proof.Machine
end

section
/-! PROOFS. The turns of a tick that end a wait or post a notice, and the commands that take the tick ahead of its frame (R83, R91,
R109, log 3, log 6). -/

namespace Sys2Proof.Machine

section

variable {s t : State} {l : Fin 4} {k : Fin 256} {b c : CueBlock} {m n : Nat} {y : Lane}

/-! ### The turn of a lane whose wait or notice ends -/

theorem Lane.waitEndsNext_of_wait {x : Lane} (wait : x.wait = some (.time n)) (ends : n ≤ 1) : x.waitEndsNext = true := by
  unfold Lane.waitEndsNext
  rw [wait]
  exact decide_eq_true ends

theorem State.tickLane_ends (wait : (s.lane l).wait = some (.time n)) (ends : n ≤ 1) : s.tickLane l = s.endWait l := by
  unfold State.tickLane
  dsimp only
  rw [wait]
  exact if_pos ends

theorem State.tickLane_posts {q : Notice} (wait : ∀ n, (s.lane l).wait ≠ some (.time n)) (held : (s.lane l).notice = some q)
    (ends : q.msLeft ≤ 1) : s.tickLane l = s.postNotice l := by
  unfold State.tickLane
  dsimp only
  split
  · next e => exact absurd e (wait _)
  · rw [held]
    exact if_pos ends

/-- A lane that stands after its turn. -/
theorem State.ticksTo_of_stands (stands : y.state ≠ .running)
    (turn : ∀ u : State, u.lanes = s.lanes → u.cues = s.cues → TickTurn l y u (u.tickLane l)) : s.TicksTo l y := by
  intro u rest lanes cues _
  have turn := turn u lanes cues
  exact ⟨_, turn, State.tickInTurn_stands rfl (by rw [turn.lane]; exact stands) rest⟩

theorem State.lane_of_lanes {u : State} (h : u.lanes = s.lanes) (j : Fin 4) : u.lane j = s.lane j := by
  unfold State.lane
  rw [h]

theorem TickTurn.setLane (u : State) (l : Fin 4) (y : Lane) : TickTurn l y u (u.setLane l y) :=
  ⟨Table.get_set_self .., .setLane u l y, rfl⟩

/-- A wait ends toward an EMPTY slot (R78, R83). -/
theorem State.ticksTo_starves (wait : (s.lane l).wait = some (.time n)) (ends : n ≤ 1) (hk : (s.lane l).slot = some k)
    (hb : s.cues.get k = some b) (note : b.note = false) (pause : b.pause = false) (last : b.last = false)
    (unpaused : (s.lane l).pauseRequested = false) (empty : s.cues.get b.link = none) :
    s.TicksTo l { s.lane l with state := .starved, wait := none, slot := some b.link, budget := 0 } := by
  refine State.ticksTo_of_stands LaneState.noConfusion fun u lanes cues => ?_
  have lane := State.lane_of_lanes lanes l
  have ended := State.endWait_starves (s := u) (by rw [lane]; exact hk) (by rw [cues]; exact hb) note pause last
    (by rw [lane]; exact unpaused) (by rw [cues]; exact empty)
  rw [State.tickLane_ends (by rw [lane]; exact wait) ends, ended, lane]
  exact .setLane ..

/-- A held notice is posted (R91). -/
theorem State.ticksTo_posts {q : Notice} (stands : (s.lane l).state ≠ .running) (wait : ∀ n, (s.lane l).wait ≠ some (.time n))
    (held : (s.lane l).notice = some q) (ends : q.msLeft ≤ 1) : s.TicksTo l { s.lane l with notice := none } := by
  refine State.ticksTo_of_stands stands fun u lanes cues => ?_
  have lane := State.lane_of_lanes lanes l
  have heldThere : (u.lane l).notice = some q := by rw [lane]; exact held
  rw [State.tickLane_posts (by rw [lane]; exact wait) heldThere ends, ← lane]
  refine ⟨?_, fun j hj => State.lane_postNotice u hj, ?_⟩
  · rw [State.postNotice_held heldThere]
    exact State.lane_withLane ..
  · rw [State.postNotice_held heldThere]
    exact State.openings_post ..

/-! ### A wait that ends at a WAIT_TIME block (R64, R82, R83) -/

/-- A woken lane that goes on to a block. -/
def Lane.wokenAt (x : Lane) (k : Fin 256) : Lane := { x with state := .running, wait := none, slot := some k }

theorem State.endWait_goesOn (hk : (s.lane l).slot = some k) (hb : s.cues.get k = some b) (note : b.note = false)
    (pause : b.pause = false) (last : b.last = false) (unpaused : (s.lane l).pauseRequested = false)
    (link : s.cues.get b.link = some c) : s.endWait l = s.setLane l ((s.lane l).wokenAt b.link) := by
  have silent (u : State) : u.noteBlock l k b = u := by
    unfold State.noteBlock
    rw [note]
    rfl
  unfold State.endWait
  rw [State.currentBlock_eq hk hb]
  dsimp only
  rw [State.finishBlock_none, if_neg (by simp [pause, unpaused]), if_neg (by simp [last]), silent,
    State.fetch_block (s := s.setLane l _) link, State.setLane_setLane, State.lane_setLane, if_pos rfl]
  rfl

/-- A RUNNING lane before a WAIT_TIME block. -/
structure State.BeforeWaitTime (s : State) (l : Fin 4) (m : Nat) : Prop where
  running : (s.lane l).state = .running
  block : ∃ k c, (s.lane l).slot = some k ∧ s.cues.get k = some c ∧ c.op = .waitTime m

theorem State.BeforeWaitTime.runningBlock (h : s.BeforeWaitTime l m) : (s.runningBlock l).isSome = true := by
  obtain ⟨k, c, hk, hc, -⟩ := h.block
  rw [State.runningBlock_running h.running hk hc]
  rfl

theorem State.BeforeWaitTime.takeNext (h : s.BeforeWaitTime l m) :
    s.takeNext l = s.setLane l ((s.lane l).waitingOn (.time m)) := by
  obtain ⟨k, c, hk, hc, op⟩ := h.block
  rw [State.takeNext_running h.running hk hc, State.takeBlock_stands (State.takeOp_waitTime op)]

theorem State.settle_waitTime (h : s.BeforeWaitTime l m) :
    State.settle laneFuel s l = s.setLane l ((s.lane l).waitingOn (.time m)) := by
  have waits : ((s.setLane l ((s.lane l).waitingOn (.time m))).lane l).state ≠ .running := by
    rw [State.lane_setLane, if_pos rfl]
    exact LaneState.noConfusion
  rw [show laneFuel = 199 + 1 from rfl]
  unfold State.settle
  rw [if_neg (by rw [← Option.not_isSome, h.runningBlock]; exact Bool.false_ne_true), h.takeNext, State.settle_stands waits]

/-- The lane stands before its block where another command is taken at the opening, and has taken it else (log 6). -/
theorem State.runOn_waitTime (h : s.BeforeWaitTime l m) :
    ∃ z, State.runOn laneFuel s l = { s with openings := s.openings.tail, lanes := s.lanes.set l z }
      ∧ (z = s.lane l ∨ z = (s.lane l).waitingOn (.time m)) := by
  have fuel : laneFuel = 199 + 1 := rfl
  by_cases opened : s.opening.1 = true
  · refine ⟨s.lane l, ?_, .inl rfl⟩
    rw [fuel, State.runOn_opened h.runningBlock opened]
    exact (State.setLane_lane (s := s.opening.2) rfl).symm
  · have before : s.opening.2.BeforeWaitTime l m := ⟨h.running, h.block⟩
    refine ⟨(s.lane l).waitingOn (.time m), ?_, .inr rfl⟩
    rw [fuel, State.runOn_next h.runningBlock (Bool.eq_false_of_not_eq_true opened), before.takeNext, State.runOn_stands]
    · rfl
    · rw [State.lane_setLane, if_pos rfl]
      exact LaneState.noConfusion

/-- A lane that is in a TIME wait which ends at a block whose link holds a WAIT_TIME block. -/
structure State.EndsAtWaitTime (s : State) (l : Fin 4) (k : Fin 256) (b : CueBlock) (m : Nat) : Prop where
  wait : ∃ n, (s.lane l).wait = some (.time n) ∧ n ≤ 1
  slot : (s.lane l).slot = some k
  block : s.cues.get k = some b
  note : b.note = false
  pause : b.pause = false
  last : b.last = false
  unpaused : (s.lane l).pauseRequested = false
  link : ∃ c, s.cues.get b.link = some c ∧ c.op = .waitTime m

namespace State.EndsAtWaitTime

theorem same (h : s.EndsAtWaitTime l k b m) (lanes : t.lanes = s.lanes) (cues : t.cues = s.cues) : t.EndsAtWaitTime l k b m := by
  have lane := State.lane_of_lanes lanes l
  exact {
    wait := by rw [lane]; exact h.wait
    slot := by rw [lane]; exact h.slot
    block := by rw [cues]; exact h.block
    note := h.note
    pause := h.pause
    last := h.last
    unpaused := by rw [lane]; exact h.unpaused
    link := by rw [cues]; exact h.link }

theorem takesTicks (h : s.EndsAtWaitTime l k b m) : (s.lane l).takesTicks = true :=
  let ⟨_, wait, _⟩ := h.wait
  Lane.takesTicks_of_wait wait

theorem endsNext (h : s.EndsAtWaitTime l k b m) : (s.lane l).waitEndsNext = true :=
  let ⟨_, wait, ends⟩ := h.wait
  Lane.waitEndsNext_of_wait wait ends

theorem tickLane (h : s.EndsAtWaitTime l k b m) : s.tickLane l = s.setLane l ((s.lane l).wokenAt b.link) := by
  obtain ⟨n, wait, ends⟩ := h.wait
  obtain ⟨c, link, -⟩ := h.link
  rw [State.tickLane_ends wait ends, State.endWait_goesOn h.slot h.block h.note h.pause h.last h.unpaused link]

theorem beforeWaitTime (h : s.EndsAtWaitTime l k b m) : (s.setLane l ((s.lane l).wokenAt b.link)).BeforeWaitTime l m := by
  have lane : (s.setLane l ((s.lane l).wokenAt b.link)).lane l = (s.lane l).wokenAt b.link := Table.get_set_self ..
  obtain ⟨c, link, op⟩ := h.link
  exact ⟨by rw [lane]; rfl, b.link, c, by rw [lane]; rfl, link, op⟩

/-- With a lane behind it that the tick changes, the woken lane runs on until it stands before that lane is taken (R83). -/
theorem ticksTo (h : s.EndsAtWaitTime l k b m) {j : Fin 4} (behind : l < j) (takes : (s.lane j).takesTicks = true) :
    s.TicksTo l (((s.lane l).wokenAt b.link).waitingOn (.time m)) := by
  intro u rest lanes cues mem
  have there := h.same lanes cues
  have lane := State.lane_of_lanes lanes l
  have settled := State.settle_waitTime there.beforeWaitTime
  rw [State.setLane_setLane, State.lane_setLane, if_pos rfl, ← there.tickLane, lane] at settled
  cases rest with
  | nil => exact absurd ((mem j).2 ⟨behind, takes⟩) List.not_mem_nil
  | cons i rest =>
    refine ⟨_, ?_, State.tickInTurn_runs_on there.endsNext i rest⟩
    rw [settled]
    exact .setLane ..

end State.EndsAtWaitTime

/-! ### The commands that take the tick ahead (log 3) -/

/-- The state with the millisecond count one higher. -/
def State.counting (s : State) : State := { s with out := { s.out with msCount := s.out.msCount + 1 } }

theorem State.countShare_free (count : s.progress.count = false) (free : s.nrst = false) : s.countShare = s.counting := by
  rw [State.countShare_eq count, if_neg (by rw [free]; exact Bool.false_ne_true)]
  rfl

/-- What the tick has reached once lane l has taken it. -/
def Progress.past (p : Progress) (l : Fin 4) : Progress := { p with count := true, lanes := l.val + 1 }

/-- The state once a woken lane has had its turn ahead and stands in context z: the turn has passed one opening. -/
def State.wokenAhead (s : State) (l : Fin 4) (z : Lane) : State :=
  { s.counting with openings := s.openings.tail, lanes := s.lanes.set l z, progress := s.progress.past l }

theorem State.lane_wokenAhead (s : State) (l : Fin 4) (z : Lane) : (s.wokenAhead l z).lane l = z := Table.get_set_self ..

theorem State.lane_wokenAhead_of_ne {i : Fin 4} (h : l ≠ i) (z : Lane) : (s.wokenAhead l z).lane i = s.lane i :=
  Table.get_set_of_ne _ h _

/-- The coming tick is uncounted and comes to lane l next, and no lane is RUNNING. -/
structure State.TickNext (s : State) (l : Fin 4) : Prop where
  on : s.power = true
  sub : s.out.frameSub = 31
  count : s.progress.count = false
  free : s.nrst = false
  lanes : s.progress.lanes = l.val
  stand : ∀ j : Fin 4, (s.lane j).state ≠ .running

namespace State.TickNext

theorem counted (h : s.TickNext l) : s.countShare = s.counting := State.countShare_free h.count h.free

/-- Lane l alone takes the tick. -/
theorem laneAhead (h : s.TickNext l) (takes : (s.lane l).takesTicks = true) :
    s.laneAhead l = { s.counting.tickInTurn [l] with progress := s.progress.past l } := by
  obtain ⟨rest, turns, -, mem⟩ := State.tickTurns_first (s := s.counting) h.lanes le_rfl takes
  have alone : rest = [] := List.eq_nil_iff_forall_not_mem.2 fun j hj => by
    obtain ⟨above, below, -⟩ := (mem j).1 hj
    exact absurd (Fin.lt_def.1 above) (by omega)
  unfold State.laneAhead
  rw [h.counted, State.lanesThrough_eq (State.settleTicked_stands (s := s.counting) h.stand), turns, alone]
  rfl

theorem exec_waitTimeExpiry (h : s.TickNext l) (ends : (s.lane l).waitEndsNext = true) :
    exec (.waitTimeExpiry l) s = .next (s.laneAhead l) := by
  have comes : s.tickComes = true := State.tickComes_of_sub (by rw [h.sub])
  show Host.Outcome.next (s.waitAhead l) = _
  unfold State.waitAhead
  rw [h.on, comes, ends, h.lanes, decide_eq_true le_rfl]
  rfl

theorem exec_heldNoticeExpiry (h : s.TickNext l) (ends : (s.lane l).noticeEndsNext = true) :
    exec (.heldNoticeExpiry l) s = .next (s.laneAhead l) := by
  have comes : s.tickComes = true := State.tickComes_of_sub (by rw [h.sub])
  show Host.Outcome.next (s.noticeAhead l) = _
  unfold State.noticeAhead
  rw [h.on, comes, ends, h.lanes, decide_eq_true le_rfl]
  rfl

/-- A lane that stands after the turn it has ahead. -/
theorem laneAhead_stands (h : s.TickNext l) (takes : (s.lane l).takesTicks = true) (ticked : s.counting.tickLane l = t)
    (stands : (t.lane l).state ≠ .running) : s.laneAhead l = { t with progress := s.progress.past l } := by
  rw [h.laneAhead takes, State.tickInTurn_stands ticked stands]
  rfl

/-- The woken lane has its turn ahead, and may stand before the WAIT_TIME block at the end of it. -/
theorem exec_waitTimeExpiry_waitTime (h : s.TickNext l) (ends : s.EndsAtWaitTime l k b m) :
    ∃ z, exec (.waitTimeExpiry l) s = .next (s.wokenAhead l z)
      ∧ (z = (s.lane l).wokenAt b.link ∨ z = ((s.lane l).wokenAt b.link).waitingOn (.time m)) := by
  have there : s.counting.EndsAtWaitTime l k b m := ends.same rfl rfl
  obtain ⟨z, run, stands⟩ := State.runOn_waitTime there.beforeWaitTime
  rw [State.lane_setLane, if_pos rfl] at stands
  refine ⟨z, ?_, stands⟩
  have turn : s.counting.tickInTurn [l] = State.runOn laneFuel (s.counting.tickLane l) l := by
    unfold State.tickInTurn
    rw [there.endsNext]
    rfl
  have set : (s.lanes.set l ((s.lane l).wokenAt b.link)).set l z = s.lanes.set l z := Table.set_set_self ..
  rw [h.exec_waitTimeExpiry ends.endsNext, h.laneAhead ends.takesTicks, turn, there.tickLane, run, State.wokenAhead, ← set]
  rfl

end State.TickNext

/-! ### The frame behind a tick taken ahead -/

/-- The lane that took the tick ahead is settled before the next lane is taken (R83). -/
theorem State.settleTicked_eq (h : s.progress.lanes = l.val + 1) : s.settleTicked = State.settle laneFuel s l := by
  have found : (allLanes.find? fun j => decide (s.progress.lanes = j.val + 1)) = some l := by
    rw [h]
    exact (by decide : ∀ l : Fin 4, (allLanes.find? fun j => decide (l.val + 1 = j.val + 1)) = some l) l
  unfold State.settleTicked
  rw [found]

theorem State.lanesThrough_settles (h : s.progress.lanes = l.val + 1) (settled : TickTurn l y s (State.settle laneFuel s l))
    (counts : ∀ j, l < j → (s.lane j).Counts) {j : Fin 4} (behind : l < j) (takes : (s.lane j).takesTicks = true) :
    (s.lanesThrough 3).lane l = y ∧ (s.lanesThrough 3).openings = s.openings := by
  have mem : j ∈ s.tickTurns 3 := State.mem_tickTurns.2 ⟨⟨by rw [h]; exact behind, by omega⟩, takes⟩
  have run : s.lanesThrough 3 = s.settleTicked.tickInTurn (s.tickTurns 3) := by
    unfold State.lanesThrough
    split
    · next e => rw [e] at mem; exact absurd mem List.not_mem_nil
    · next e => rw [e]
  rw [run, State.settleTicked_eq h]
  refine settled.behind (s.nodup_tickTurns 3) (fun i hi => ?_) counts
  have := (State.mem_tickTurns.1 hi).1.1
  exact Fin.lt_def.2 (by omega)

/-- The frame after the woken lane's turn: the lane stands at the WAIT_TIME block at the end of it. -/
theorem exec_frame_settles (on : s.power = true) (sub : s.out.frameSub = 31) (lanes : s.progress.lanes = l.val + 1)
    (stands : s.lane l = y ∧ y.state ≠ .running ∨ s.BeforeWaitTime l m ∧ (s.lane l).waitingOn (.time m) = y)
    (counts : ∀ j, l < j → (s.lane j).Counts) {j : Fin 4} (behind : l < j) (takes : (s.lane j).takesTicks = true) :
    ∃ u, exec .frame s = .next u ∧ u.lane l = y ∧ u.openings = s.openings := by
  obtain ⟨u, before, t, run, lane, openings⟩ := exec_frame_tick on sub
  have same := before.trans (SameTick.countShare u)
  have settled : TickTurn l y u.countShare (State.settle laneFuel u.countShare l) := by
    rcases stands with ⟨there, stands⟩ | ⟨waits, there⟩
    · rw [State.settle_stands (by rw [same.lane, there]; exact stands)]
      exact ⟨(same.lane l).trans there, fun _ _ => rfl, rfl⟩
    · have waitsThere : u.countShare.BeforeWaitTime l m :=
        ⟨by rw [same.lane]; exact waits.running, by rw [same.lane, same.cues]; exact waits.block⟩
      rw [State.settle_waitTime waitsThere, same.lane, there]
      exact .setLane ..
  obtain ⟨laneThere, kept⟩ := State.lanesThrough_settles (by rw [same.progress]; exact lanes) settled
    (fun i hi => by rw [same.lane]; exact counts i hi) behind (by rw [same.lane]; exact takes)
  rw [← State.lane_tickRest] at laneThere
  rw [← State.openings_tickRest] at kept
  exact ⟨t, run, (lane l).trans laneThere, openings.trans (kept.trans same.openings)⟩

/-! ### A holdoff that ends (R109) -/

theorem exec_holdoffExpiry_idle {i : Fin 32} (h : (s.binding i).holdoffLeft ≠ 1 ∨ s.out.frameSub + 1 < 32) :
    exec (.holdoffExpiry i) s = .next s := by
  show Host.Outcome.next (s.holdoffAhead i) = _
  unfold State.holdoffAhead
  rcases h with h | h
  · rw [decide_eq_false h, Bool.and_false]
    rfl
  · have untimely : s.tickComes = false := decide_eq_false (Nat.not_le.2 h)
    rw [untimely, Bool.and_false]
    rfl

theorem exec_holdoffExpiry {i : Fin 32} (on : s.power = true) (sub : s.out.frameSub = 31) (count : s.progress.count = false)
    (free : s.nrst = false) (holdoffs : s.progress.holdoffs = false) (h : (s.binding i).holdoffLeft = 1) :
    exec (.holdoffExpiry i) s = .next { s.counting.tickHoldoffs with
      progress := { s.progress with count := true, holdoffs := true } } := by
  have comes : s.tickComes = true := State.tickComes_of_sub (by rw [sub])
  show Host.Outcome.next (s.holdoffAhead i) = _
  unfold State.holdoffAhead
  rw [on, comes, holdoffs, decide_eq_true h, State.countShare_free count free]
  rfl

theorem State.binding_tickHoldoffs (s : State) (j : Fin 32) :
    s.tickHoldoffs.binding j = { s.binding j with holdoffLeft := (s.binding j).holdoffLeft - 1 } := Table.get_map ..

end

/-! ### The commands without effect -/

theorem exec_waitTimeExpiry_idle {s : State} {l : Fin 4} (h : (s.lane l).waitEndsNext = false) :
    exec (.waitTimeExpiry l) s = .next s := by
  show Host.Outcome.next (s.waitAhead l) = _
  unfold State.waitAhead
  rw [h, Bool.and_false]
  rfl

theorem exec_heldNoticeExpiry_idle {s : State} {l : Fin 4} (h : (s.lane l).noticeEndsNext = false) :
    exec (.heldNoticeExpiry l) s = .next s := by
  show Host.Outcome.next (s.noticeAhead l) = _
  unfold State.noticeAhead
  rw [h, Bool.and_false]
  rfl

/-- A record posted beside another progress of the tick. -/
theorem State.post_progress (s : State) (p : Progress) (k : EventKind) (n : Nat) (g r : Byte) (x : BitVec 32) :
    ({ s with progress := p }).post k n g r x = { s.post k n g r x with progress := p } := by
  rw [State.post_eq s, State.post_eq { s with progress := p },
    State.evq_post_congr (s := s) (t := { s with progress := p }) rfl rfl]

theorem execAll_pair {a b : Instr} {s t u : State} (first : exec a s = .next t) (second : exec b t = .next u) :
    execAll [a, b] s = .next u := by
  unfold execAll
  rw [first]
  unfold execAll
  dsimp only
  rw [second]
  rfl

/-- Settles O48: the tick comes to lane l first; what it makes of the lane is the same ahead of the frame and in it, and the lanes
behind l only count. -/
theorem tickEndsWaitsNoticesAndHoldoffs : Obligations.TickEndsWaitsNoticesAndHoldoffs := by
  unfold Obligations.TickEndsWaitsNoticesAndHoldoffs
  constructor
  · intro l s on sub count free lanes stand x counted onlyCount atFrame
    have next : s.TickNext l := ⟨on, sub, count, free, lanes, stand⟩
    have reaches (h : onlyCount) : s.TickReaches l := ⟨lanes, stand, fun j hj => ⟨(h j hj).1, (h j hj).2⟩⟩
    have framed {y : Lane} (takes : x.takesTicks = true) (ticks : s.TicksTo l y) : atFrame y := fun h =>
      let ⟨u, run, lane, _⟩ := (reaches h).frame on sub takes ticks
      ⟨u, run, lane⟩
    refine ⟨fun t k b wait ends hk hb note pause last unpaused empty => ?_,
      fun t m k b c j wait ends hk hb note pause last unpaused link op behind ticking only => ?_, fun wait => ?_,
      fun n unwaited held ends => ?_, fun unheld => ?_⟩
    · intro y
      have takes : x.takesTicks = true := Lane.takesTicks_of_wait wait
      refine ⟨?_, framed takes (State.ticksTo_starves wait ends hk hb note pause last unpaused empty)⟩
      have ticked : s.counting.tickLane l = s.counting.setLane l y :=
        (State.tickLane_ends (s := s.counting) wait ends).trans
          (State.endWait_starves (s := s.counting) hk hb note pause last unpaused empty)
      have stands : ((s.counting.setLane l y).lane l).state ≠ .running := by
        rw [State.lane_setLane, if_pos rfl]
        exact LaneState.noConfusion
      rw [next.exec_waitTimeExpiry (Lane.waitEndsNext_of_wait wait ends), next.laneAhead_stands takes ticked stands]
      rfl
    · intro y
      have woken : s.EndsAtWaitTime l k b m := ⟨⟨t, wait, ends⟩, hk, hb, note, pause, last, unpaused, c, link, op⟩
      have takesBehind : (s.lane j).takesTicks = true := by
        rcases ticking with ⟨r, waits⟩ | holds
        · exact Lane.takesTicks_of_wait waits
        · obtain ⟨q, held⟩ := Option.ne_none_iff_exists'.1 holds
          exact Lane.takesTicks_of_notice held
      have ticks : s.TicksTo l y := woken.ticksTo behind takesBehind
      refine ⟨(reaches only).msTick on sub woken.takesTicks ticks, (reaches only).frame on sub woken.takesTicks ticks, ?_⟩
      obtain ⟨z, ahead, stands⟩ := next.exec_waitTimeExpiry_waitTime woken
      have lane := s.lane_wokenAhead l z
      have other {i : Fin 4} (h : l < i) : (s.wokenAhead l z).lane i = s.lane i := State.lane_wokenAhead_of_ne h.ne z
      have there : (s.wokenAhead l z).lane l = y ∧ y.state ≠ .running
          ∨ (s.wokenAhead l z).BeforeWaitTime l m ∧ ((s.wokenAhead l z).lane l).waitingOn (.time m) = y := by
        rcases stands with rfl | rfl
        · exact .inr ⟨⟨by rw [lane]; rfl, b.link, c, by rw [lane]; rfl, link, op⟩, by rw [lane]; rfl⟩
        · exact .inl ⟨lane, LaneState.noConfusion⟩
      obtain ⟨u, run, result⟩ := exec_frame_settles (s := s.wokenAhead l z) on sub rfl there
        (fun i hi => by rw [other hi]; exact (reaches only).behind i hi) behind (by rw [other behind]; exact takesBehind)
      exact ⟨u, execAll_pair ahead run, result⟩
    · exact exec_waitTimeExpiry_idle (Lane.waitEndsNext_eq_false wait)
    · have endsNext : x.noticeEndsNext = true := by
        unfold Lane.noticeEndsNext
        rw [unwaited, held]
        exact decide_eq_true ends
      have untimed (t : Nat) : x.wait ≠ some (.time t) := by
        rw [unwaited]
        exact nofun
      have takes : x.takesTicks = true := Lane.takesTicks_of_notice held
      refine ⟨?_, framed takes (State.ticksTo_posts (stand l) untimed held ends)⟩
      have ticked := (State.tickLane_posts (s := s.counting) untimed held ends).trans (State.postNotice_held held)
      rw [next.exec_heldNoticeExpiry endsNext, next.laneAhead_stands takes ticked (by rw [State.lane_withLane]; exact stand l)]
      exact congrArg (fun u => Host.Outcome.next (s.withLane u l { x with notice := none }))
        (State.post_progress s.counting (s.progress.past l) ..).symm
    · exact exec_heldNoticeExpiry_idle (Lane.noticeEndsNext_eq_false unheld)
  · intro i s on holdoffs count free
    refine ⟨fun ends sub => ?_, exec_holdoffExpiry_idle⟩
    have left (j : Fin 32) := s.counting.binding_tickHoldoffs j
    refine ⟨_, exec_holdoffExpiry on sub count free holdoffs ends, ?_, left, rfl⟩
    exact (congrArg Binding.holdoffLeft (left i)).trans (by rw [show (s.counting.binding i).holdoffLeft = 1 from ends])

end Sys2Proof.Machine
end

section
/-! PROOFS. The routing of a code, by what LNC and the bindings make of it (R105, R106). -/

namespace Sys2Proof.Machine

/-- The first step of the routing: a record of every code where all are reported (R105, R106). -/
def State.reported (s : State) (c : Code) : State := if s.trg.report = .all then s.postTrigger 0 c else s

/-- The last step of the routing: a code that nothing took is counted, and reported where such codes are (R105, R106). -/
def State.countUnbound (s : State) (c : Code) : State :=
  if s.trg.report = .unbound then (s.raise .trigUnbound).postTrigger 1 c else s.raise .trigUnbound

section

variable {s t u : State} {c : Code} {n : Nat} {m : Bool}

/-- The routing as its four steps. The two calls are taken by cases, so that the kernel never evaluates the 32 bindings' turns. -/
theorem State.routeCode_eq (woke : (s.reported c).reportCode c = (n, t)) (acted : t.fireBindings c = (m, u)) :
    s.routeCode c = if n = 0 ∧ m = false then u.countUnbound c else u := by
  generalize routed : (if n = 0 ∧ m = false then u.countUnbound c else u) = r
  unfold State.routeCode
  extract_lets v
  have same : v = s.reported c := rfl
  clear_value v
  subst same
  split
  next n' t' woke' =>
  cases woke.symm.trans woke'
  split
  next m' u' acted' =>
  cases acted.symm.trans acted'
  exact routed

end

end Sys2Proof.Machine
end

section
/-! PROOFS. The bounds of EVQ and the filter table: what voices, lanes and the owners of the requests make of them (R103, R104, R151,
R152, R154, R156, R157, R159). -/

namespace Sys2Proof.Machine

/-- The bounds of EVQ and the law of the filter table go over from one state to another. -/
structure KeepsBounds (s t : State) : Prop where
  events : s.evq.bounded → t.evq.bounded
  filter : s.trg.filterLaw → t.trg.filterLaw

namespace KeepsBounds

variable {s t u : State}

theorem refl (s : State) : KeepsBounds s s := ⟨id, id⟩

theorem trans (h : KeepsBounds s t) (k : KeepsBounds t u) : KeepsBounds s u := ⟨k.events ∘ h.events, k.filter ∘ h.filter⟩

/-- An update of what the two laws do not read. -/
theorem beside (events : t.evq = s.evq) (list : t.trg.filterList = s.trg.filterList)
    (table : t.trg.filterTable = s.trg.filterTable) : KeepsBounds s t := by
  refine ⟨fun law => ?_, fun law => ?_⟩
  · rw [events]
    exact law
  · unfold Trg.filterLaw
    rw [list, table]
    exact law

/-- Voices, allocator and lanes use EVQ by its own operations, and do not touch TRG. -/
theorem of_moves (h : Moves s t) : KeepsBounds s t := by
  refine ⟨h.bounded, fun law => ?_⟩
  rw [h.untouched.trg]
  exact law

theorem post (s : State) (k : EventKind) (n : Nat) (g r : Byte) (x : BitVec 32) : KeepsBounds s (s.post k n g r x) :=
  of_moves (.post ..)

theorem raise (s : State) (k : Tally) : KeepsBounds s (s.raise k) := of_moves (.raise ..)

/-- A filter list with its marks (R104). -/
theorem setFilter (events : t.evq = s.evq) {x : Trg} {l : List Code} (filter : t.trg.filterList = (x.setFilter l).filterList)
    (table : t.trg.filterTable = (x.setFilter l).filterTable) : KeepsBounds s t := by
  refine ⟨fun law => ?_, fun _ => ?_⟩
  · rw [events]
    exact law
  · unfold Trg.filterLaw
    rw [filter, table]
    rfl

/-- Fewer records, with the lost counter and the tallies as they were or 0 (R154, R157, R159). -/
theorem fewer (queue : t.evq.queue.length ≤ s.evq.queue.length) (lost : t.evq.lost = s.evq.lost ∨ t.evq.lost = 0)
    (tallies : ∀ i, t.evq.tallies.get i = s.evq.tallies.get i ∨ t.evq.tallies.get i = 0)
    (list : t.trg.filterList = s.trg.filterList) (table : t.trg.filterTable = s.trg.filterTable) : KeepsBounds s t := by
  refine ⟨fun ⟨records, losses, counts⟩ => ⟨queue.trans records, ?_, fun i => ?_⟩, fun law => ?_⟩
  · omega
  · have := tallies i
    have := counts i
    omega
  · unfold Trg.filterLaw
    rw [list, table]
    exact law

/-! ### The owners of the requests (R164, R166, R174) -/

/-- An answer beside the state. -/
theorem answered {α : Type} (h : KeepsBounds s t) (a : α) : KeepsBounds s (a, t).2 := h

theorem onLane (lane : Byte) {f : Fin 4 → Taking} (keeps : ∀ l, KeepsBounds s (f l s).2) : KeepsBounds s (onLane lane f s).2 := by
  unfold Machine.onLane
  split
  · exact refl s
  · exact keeps _

theorem onVoice (voice g : Byte) {f : State → Handle → Status × State} (moves : ∀ h, Moves s (f s h).2) :
    KeepsBounds s (onVoice voice g f s).2 := by
  unfold Machine.onVoice
  split
  · exact refl s
  · exact of_moves (moves _)

theorem doCueWrite (s : State) (slot : Byte) (block : List Byte) : KeepsBounds s (doCueWrite slot block s).2 := by
  unfold Machine.doCueWrite
  split
  · exact refl s
  split
  · exact refl s
  next b _ =>
  unfold State.writeCue
  split
  · exact refl s
  split
  · exact refl s
  · have filled : KeepsBounds s (s.setCue slot.toFin (some b)) := beside rfl rfl rfl
    exact (filled.trans (of_moves (.wakeStarved ..))).answered _

theorem doLaneStart (s : State) (lane slot clear : Byte) : KeepsBounds s (doLaneStart lane slot clear s).2 :=
  onLane lane fun l => by
    unfold State.laneStartAt
    split
    · exact (of_moves (.startLane ..)).answered _
    · exact (of_moves (.startLane ..)).answered _
    all_goals exact refl s

theorem doLaneAbort (s : State) (lane voices : Byte) : KeepsBounds s (doLaneAbort lane voices s).2 :=
  onLane lane fun l => by
    split
    · exact refl s
    · exact (of_moves (.abortLane ..)).answered _

theorem doVoicePlay (s : State) (w : OrderWire) : KeepsBounds s (doVoicePlay w s).2 := by
  unfold Machine.doVoicePlay
  split
  · exact refl s
  · next o _ =>
    have order := of_moves (.takeOrder s o .link)
    unfold State.playAnswer
    split <;> next e => rw [e] at order; exact order

theorem doVoiceRamp (s : State) (voice g : Byte) (target : Half) (rate scale mode notify : Byte) :
    KeepsBounds s (doVoiceRamp voice g target rate scale mode notify s).2 := by
  unfold Machine.doVoiceRamp
  split
  · exact refl s
  · split
    · exact refl s
    · exact of_moves (.opRamp ..)

theorem doEventRead (s : State) (count : Byte) : KeepsBounds s (doEventRead count s).2 := by
  have notices : KeepsBounds s s.releaseNotices := of_moves (.foldl State.postNotice .postNotice ..)
  have removed (t : State) (n : Nat) : KeepsBounds t { t with evq := t.evq.remove n } :=
    fewer ((List.drop_sublist ..).length_le) (.inl rfl) (fun _ => .inl rfl) rfl rfl
  unfold Machine.doEventRead
  split
  · exact refl s
  · exact (notices.trans (removed ..)).answered _

theorem doTallyRead (s : State) (choice : Byte) : KeepsBounds s (doTallyRead choice s).2 := by
  unfold Machine.doTallyRead
  split
  · exact refl s
  · refine fewer le_rfl (.inl rfl) (fun i => ?_) rfl rfl
    unfold Evq.readTallies
    split
    · exact .inr (Table.get_const ..)
    · exact .inl rfl

theorem doTriggerSet (s : State) (rate report : Byte) : KeepsBounds s (doTriggerSet rate report s).2 := by
  unfold Machine.doTriggerSet Trg.take
  repeat' split
  all_goals exact beside rfl rfl rfl

theorem doFilterSet (s : State) (count : Byte) (codes : List Code) : KeepsBounds s (doFilterSet count codes s).2 := by
  unfold Machine.doFilterSet
  split
  · exact refl s
  split
  · exact refl s
  split
  · exact refl s
  · exact setFilter rfl rfl rfl

end KeepsBounds

/-- The owner of a request keeps both laws. FILTER SET lists and marks anew; EVENT READ, TALLY READ and RESET take from EVQ; the voice and
the lane requests post records. -/
theorem RequestOwner.keepsBounds {f : Taking} (owner : RequestOwner f) (s : State) : KeepsBounds s (f s).2 := by
  cases owner with
  | filterSet => exact .doFilterSet ..
  | eventRead => exact .doEventRead ..
  | tallyRead => exact .doTallyRead ..
  | resetWarm => exact .fewer (Nat.zero_le _) (.inr rfl) (fun _ => .inl rfl) rfl rfl
  | cueWrite => exact .doCueWrite ..
  | laneStart => exact .doLaneStart ..
  | lanePause => exact .onLane _ fun l => .of_moves (.pauseRequest s l)
  | laneResume => exact .onLane _ fun l => .of_moves (.resumeLane s l)
  | laneAbort => exact .doLaneAbort ..
  | voicePlay => exact .doVoicePlay ..
  | voiceRamp => exact .doVoiceRamp ..
  | voiceRelease => exact .onVoice _ _ (.opRelease s)
  | voiceStop => exact .onVoice _ _ (.opStop s)
  | voiceHold => exact .onVoice _ _ (.opHold s)
  | voiceContinue => exact .onVoice _ _ (.opContinue s)
  | triggerSet => exact .doTriggerSet ..
  | laneStatus => exact .onLane _ fun _ => .refl s
  | autostartSet =>
    refine .onLane _ fun l => ?_
    split <;> exact .beside rfl rfl rfl
  | storeProgram =>
    unfold doStoreProgram State.beginOn
    repeat' split
    all_goals exact .beside rfl rfl rfl
  | storeErase =>
    unfold doStoreErase State.beginOn
    repeat' split
    all_goals exact .beside rfl rfl rfl
  | clipDefine =>
    unfold doClipDefine State.defineClip
    repeat' split
    all_goals exact .beside rfl rfl rfl
  | clipDelete =>
    unfold doClipDelete
    repeat' split
    all_goals exact .beside rfl rfl rfl
  | storeRead =>
    unfold doStoreRead
    repeat' split
    all_goals exact .refl s
  | cueClear =>
    unfold doCueClear
    repeat' split
    all_goals exact .beside rfl rfl rfl
  | bindSet =>
    unfold doBindSet
    repeat' split
    all_goals exact .beside rfl rfl rfl
  | bindClear =>
    unfold doBindClear
    repeat' split
    all_goals exact .beside rfl rfl rfl
  | outputSet =>
    unfold doOutputSet
    repeat' split
    all_goals exact .beside rfl rfl rfl
  | setupCommit => unfold doSetupCommit; split <;> exact .beside rfl rfl rfl
  | linkSet => unfold doLinkSet; split <;> exact .beside rfl rfl rfl
  | clipRead => unfold doClipRead; split <;> exact .refl s
  | cueRead => unfold doCueRead; split <;> exact .refl s
  | voiceStatus => unfold doVoiceStatus; split <;> exact .refl s
  | bindRead => unfold doBindRead; split <;> exact .refl s
  | resetCold => exact .beside rfl rfl rfl
  | refused => exact .refl s
  | badField => exact .refl s
  | identify => exact .refl s
  | storeStatus => exact .refl s

end Sys2Proof.Machine
end

section
/-! PROOFS. Every step keeps the bounds of EVQ and the filter table: the two lines, time, the resets and loading (R100 to R106, R116,
R128, R137, R138, R151, R152, R156, R158, R159, R161 to R166, R182). -/

namespace Sys2Proof.Machine

namespace KeepsBounds

/-! ### The host line (R161 to R166) -/

theorem takeRequest {f : Taking} (owner : RequestOwner f) (s : State) (tag type : Byte) : KeepsBounds s (s.takeRequest tag type f) :=
  ((beside rfl rfl rfl : KeepsBounds s s.oweReply).trans (owner.keepsBounds _)).trans (beside rfl rfl rfl)

theorem request {f : Taking} (owner : RequestOwner f) (s : State) (tag type : Byte) : KeepsBounds s (s.request tag type f) := by
  unfold State.request
  split
  · exact refl s
  · split
    · exact raise ..
    · exact takeRequest owner ..

theorem link (s : State) (x : Lnk) : KeepsBounds s { s with lnk := x } := beside rfl rfl rfl

theorem noteLnk (s : State) (r : Reception) : KeepsBounds s (s.noteLnk r) := by
  unfold State.noteLnk
  split <;> exact link ..

theorem takeFrame (s : State) (bytes : List Byte) (length : Nat) : KeepsBounds s (s.takeFrame bytes length) := by
  unfold State.takeFrame
  dsimp only
  split
  · exact raise ..
  · split
    · exact raise ..
    · exact takeRequest (.requestOf _ _) ..

theorem discardFrame (s : State) : KeepsBounds s s.discardFrame := (link ..).trans (raise ..)

theorem keepByte (s : State) (held : List Byte) : KeepsBounds s (s.keepByte held) := by
  unfold State.keepByte
  split
  · exact link ..
  · split
    · exact discardFrame s
    · split
      · exact link ..
      · exact (link ..).trans (takeFrame ..)

theorem hostTake (s : State) (b : Byte) (good : Bool) : KeepsBounds s (s.hostTake b good) := by
  unfold State.hostTake
  split
  · exact refl s
  · split <;> exact link ..
  · split
    · exact keepByte ..
    · exact discardFrame s

theorem hostByte (s : State) (b : Byte) (good : Bool) : KeepsBounds s (s.hostByte b good) := by
  unfold State.hostByte
  split
  · exact noteLnk ..
  · exact (noteLnk ..).trans (hostTake ..)

theorem hostLine (s : State) (good : Bool) (e : LineEvent) : KeepsBounds s (s.hostLine good e) := by
  cases e with
  | startBit => exact noteLnk ..
  | byte b => exact hostByte ..

theorem hostGapFrame (s : State) : KeepsBounds s s.hostGapFrame := by
  unfold State.hostGapFrame
  split
  · split
    · exact discardFrame s
    · exact link ..
  · exact refl s

/-! ### The trigger line (R100 to R110) -/

theorem bindingActs (s : State) (i : Fin 32) : KeepsBounds s (s.bindingActs i) := by
  have loaded : KeepsBounds s (s.loadHoldoff i) := beside rfl rfl rfl
  have start := loaded.trans (of_moves (.bindingStart (s.loadHoldoff i) i (s.binding i)))
  unfold State.bindingActs
  dsimp only
  rw [← State.loadHoldoff]
  split
  · exact raise ..
  · split
    · next e => rw [e] at start; exact start.trans (raise ..)
    · next e => rw [e] at start; exact start

/-- The bindings that match a code act in turn (R105). -/
theorem fireBindings (s : State) (c : Code) : KeepsBounds s (s.fireBindings c).2 := by
  rw [State.fireBindings_eq]
  exact List.foldlRecOn _ _ (refl s) fun t h i _ => h.trans (bindingActs t i)

theorem routeCode (s : State) (c : Code) : KeepsBounds s (s.routeCode c) := by
  have posted (b : Prop) [Decidable b] (r : Byte) (u : State) : KeepsBounds u (if b then u.postTrigger r c else u) := by
    split
    · exact post ..
    · exact refl u
  rcases woke : (s.reported c).reportCode c with ⟨n, t⟩
  rcases acted : t.fireBindings c with ⟨m, u⟩
  have woken := (posted (s.trg.report = .all) 0 s).trans (of_moves (.reportCode (s.reported c) c))
  have fired := fireBindings t c
  rw [woke] at woken
  rw [acted] at fired
  rw [State.routeCode_eq woke acted]
  refine woken.trans (fired.trans ?_)
  split
  · exact (raise u .trigUnbound).trans (posted (u.trg.report = .unbound) ..)
  · exact refl u

theorem trigFrame (s : State) (held : List Byte) : KeepsBounds s (s.trigFrame held) := by
  unfold State.trigFrame
  dsimp only
  split
  · exact raise ..
  · split
    · exact routeCode ..
    · exact refl s

theorem noteTrg (s : State) (r : Reception) : KeepsBounds s (s.noteTrg r) := by
  unfold State.noteTrg
  split <;> exact beside rfl rfl rfl

/-- The receiver hunts: the filter is not touched. -/
theorem hunt (s : State) : KeepsBounds s { s with trg := s.trg.hunt } := beside rfl rfl rfl

theorem trigTake (s : State) (b : Byte) (good : Bool) : KeepsBounds s (s.trigTake b good) := by
  unfold State.trigTake
  split
  · exact refl s
  · split <;> exact beside rfl rfl rfl
  · split
    · dsimp only
      split
      · exact beside rfl rfl rfl
      · exact (hunt s).trans (trigFrame ..)
    · exact (hunt s).trans (raise ..)

theorem trigByte (s : State) (b : Byte) (good : Bool) : KeepsBounds s (s.trigByte b good) := by
  unfold State.trigByte
  split
  · exact noteTrg ..
  · exact (noteTrg ..).trans (trigTake ..)

theorem trigLine (s : State) (good : Bool) (e : LineEvent) : KeepsBounds s (s.trigLine good e) := by
  cases e with
  | startBit => exact noteTrg ..
  | byte b => exact trigByte ..

theorem trigGapFrame (s : State) : KeepsBounds s s.trigGapFrame := by
  unfold State.trigGapFrame
  split
  · split
    · exact (hunt s).trans (raise ..)
    · exact beside rfl rfl rfl
  · exact refl s

/-! ### Store steps (R128, R132, R185) -/

theorem endStep (s : State) (r : OpRecord) (result : StoreResult) : KeepsBounds s (s.endStep r result) := by
  unfold State.endStep
  dsimp only
  split
  · exact beside rfl rfl rfl
  · split
    · exact beside rfl rfl rfl
    · refine KeepsBounds.trans ?_ (post ..)
      exact beside rfl rfl rfl

theorem store (s : State) (m : List Host.Cell) (o : Option OpRecord) (d : Nat) :
    KeepsBounds s { s with mem := m, op := o, damage := d } := beside rfl rfl rfl

theorem stepDone (s : State) : KeepsBounds s s.stepDone := by
  unfold State.stepDone
  split
  · exact refl s
  · exact (store s _ s.op s.damage).trans (endStep ..)

theorem tickStore (s : State) : KeepsBounds s s.tickStore := by
  unfold State.tickStore
  split
  · exact refl s
  · split
    · unfold State.stepTimesOut
      split
      · exact refl s
      · exact (store s _ s.op _).trans (endStep ..)
    · exact store s s.mem _ s.damage

/-! ### Time (R137, R138, log 3) -/

theorem voicesThrough (s : State) (last : Nat) : KeepsBounds s (s.voicesThrough last) := by
  rw [State.voicesThrough_eq]
  exact of_moves (.foldl _ .voiceFrame ..)

theorem mixFrame (s : State) : KeepsBounds s s.mixFrame := by
  have mixed : KeepsBounds s { s with out := s.mixedOut } := beside rfl rfl rfl
  rw [State.mixFrame_eq]
  split
  · exact mixed.trans (raise ..)
  · exact mixed

theorem muteAhead (s : State) : KeepsBounds s s.muteAhead := by
  unfold State.muteAhead
  split <;> exact beside rfl rfl rfl

theorem countShare (s : State) : KeepsBounds s s.countShare := by
  unfold State.countShare
  split <;> exact beside rfl rfl rfl

theorem lanesThrough (s : State) (last : Nat) : KeepsBounds s (s.lanesThrough last) := by
  have settled : Moves s s.settleTicked := by
    unfold State.settleTicked
    split
    · exact .refl s
    · exact .settle ..
  unfold State.lanesThrough
  split
  · exact refl s
  · exact of_moves (settled.trans (.tickInTurn ..))

theorem tickHoldoffs (s : State) : KeepsBounds s s.tickHoldoffs := beside rfl rfl rfl

/-- A share that has been taken already, or is taken now. -/
theorem share {s t : State} (h : KeepsBounds s t) (taken : Bool) : KeepsBounds s (if taken = true then s else t) := by
  split
  · exact refl s
  · exact h

theorem tickRest (s : State) : KeepsBounds s s.tickRest :=
  (((countShare s).trans (lanesThrough ..)).trans (share (tickHoldoffs _) _)).trans (share (tickStore _) _)

theorem ite {s t : State} (h : KeepsBounds s t) (b : Bool) : KeepsBounds s (if b = true then t else s) := by
  split
  · exact h
  · exact refl s

theorem frame (s : State) : KeepsBounds s s.frame := by
  have ended (u : State) : KeepsBounds u u.endFrame := ((tickRest u).ite u.tickComes).trans (beside rfl rfl rfl)
  exact ((((voicesThrough s 15).trans (mixFrame _)).trans (share (hostGapFrame _) _)).trans (share (trigGapFrame _) _)).trans (ended _)

/-- A command of log 3 that takes a share of the coming frame ahead, or has no effect. -/
theorem ahead {s t : State} (h : KeepsBounds s t) (b : Bool) (p : Progress) :
    KeepsBounds s (if b = true then { t with progress := p } else s) :=
  (h.trans (beside rfl rfl rfl : KeepsBounds t { t with progress := p })).ite b

theorem laneAhead (s : State) (l : Fin 4) (b : Bool) : KeepsBounds s (if b = true then s.laneAhead l else s) :=
  ahead ((countShare s).trans (lanesThrough ..)) b _

/-! ### Signals and autostart entries (R84, R95) -/

theorem nextSignal (s : State) : KeepsBounds s s.nextSignal := by
  unfold State.nextSignal
  split
  · exact refl s
  · refine KeepsBounds.trans ?_ (of_moves (.takeSignal ..))
    exact beside rfl rfl rfl

theorem nextAutostart (s : State) : KeepsBounds s s.nextAutostart := by
  unfold State.nextAutostart
  split
  · exact refl s
  · next rest _ =>
    have taken : KeepsBounds s { s with autostartDue := rest } := beside rfl rfl rfl
    dsimp only
    split
    · exact taken.trans (of_moves (.startLane ..))
    · exact taken

/-! ### The resets and loading (R116, R158, R182) -/

/-- The values of a cold reset are within the bounds, with no filter listed and no mark set. -/
theorem of_reset (s : State) {t : State} (events : t.evq = State.reset.evq) (trg : t.trg = State.reset.trg) : KeepsBounds s t := by
  refine ⟨fun _ => ?_, fun _ => ?_⟩
  · rw [events]
    exact State.evq_bounded_reset
  · rw [trg]
    rfl

theorem replyEnds (s : State) : KeepsBounds s s.replyEnds := by
  unfold State.replyEnds
  split
  · exact link ..
  · exact link ..
  · exact of_reset s rfl rfl

theorem assertNrst (s : State) : KeepsBounds s s.assertNrst := by
  unfold State.assertNrst
  split
  · exact refl s
  · split
    · exact of_reset s rfl rfl
    · exact beside rfl rfl rfl

theorem powerOn (s : State) : KeepsBounds s s.powerOn := by
  unfold State.powerOn
  split
  · exact refl s
  · exact of_reset s rfl rfl

theorem powerOff (s : State) : KeepsBounds s s.powerOff := by
  unfold State.powerOff
  split
  · exact of_reset s rfl rfl
  · exact refl s

/-- The loader hands TRG a filter list with its marks, and posts SETUP_LOADED (R182). -/
theorem load (s : State) : KeepsBounds s s.load := by
  rcases s.load_cases with same | ⟨-, -, loaded⟩
  · rw [same]
    exact refl s
  · rw [loaded]
    unfold State.loadingComplete
    refine KeepsBounds.trans ?_ (post ..)
    exact setFilter (x := s.trg) rfl rfl rfl

end KeepsBounds

/-! ### Every step -/

/-- Every command keeps the bounds of EVQ and the filter table. -/
theorem exec_keepsBounds {c : Instr} {s t : State} (h : exec c s = .next t) : KeepsBounds s t := by
  cases hc : requestHead c with
  | some p =>
    obtain ⟨f, owner, he⟩ := exec_of_host (tag := p.1) (type := p.2) hc
    cases (he s).symm.trans h
    exact .request owner ..
  | none =>
    cases c with
    | hostFrameComplete => cases h; exact .hostByte ..
    | hostGapTimeout => cases h; exact (KeepsBounds.hostGapFrame s).ahead _ _
    | replySent => cases h; exact (KeepsBounds.replyEnds s).ite _
    | nrstAssert => cases h; exact .assertNrst s
    | nrstRelease => cases h; exact .beside rfl rfl rfl
    | powerUp => cases h; exact .powerOn s
    | setupLoad => cases h; exact .load s
    | autostartEntry => cases h; exact .nextAutostart s
    | triggerFrameComplete => cases h; exact .trigByte ..
    | trigGapTimeout => cases h; exact (KeepsBounds.trigGapFrame s).ahead _ _
    | frame => cases h; exact (KeepsBounds.frame s).ite _
    | cutComplete v => cases h; exact (KeepsBounds.voicesThrough s v.val).ahead _ _
    | rampMoveInstant v => cases h; exact (KeepsBounds.voicesThrough s v.val).ahead _ _
    | muteRampEnd => cases h; exact .muteAhead s
    | msTick => cases h; exact (KeepsBounds.tickRest s).ahead _ _
    | waitTimeExpiry => cases h; exact .laneAhead ..
    | heldNoticeExpiry => cases h; exact .laneAhead ..
    | holdoffExpiry => cases h; exact ((KeepsBounds.countShare s).trans (.tickHoldoffs _)).ahead _ _
    | stepTimeout => cases h; exact ((KeepsBounds.countShare s).trans (.tickStore _)).ahead _ _
    | storeStepDone => cases h; exact .stepDone s
    | handleNotLive => cases h; exact .nextSignal s
    | retryRound => cases h; exact .of_moves (.retryRound s)
    | hostByteReceived => cases h; exact .hostLine ..
    | triggerByteReceived => cases h; exact .trigLine ..
    | powerLoss => cases h; exact .powerOff s
    | _ => cases hc

theorem step_keepsBounds {s t : State} (h : step s = .next t) : KeepsBounds s t := by
  rcases step_cases h with rfl | ⟨c, rest, h⟩
  · exact .of_moves (.goOn s)
  · exact (KeepsBounds.beside rfl rfl rfl : KeepsBounds s { s with pending := rest }).trans (exec_keepsBounds h)

/-- Settles O56: what voices and lanes do comes to EVQ by its own operations, which keep its bounds, and whatever lists a filter marks
it in a table of no marks. -/
theorem stepKeepsQueueBoundsAndFilterTable : Obligations.StepKeepsQueueBoundsAndFilterTable := by
  unfold Obligations.StepKeepsQueueBoundsAndFilterTable
  exact ⟨fun _ _ law h => (step_keepsBounds h).events law, fun _ _ law h => (step_keepsBounds h).filter law⟩

end Sys2Proof.Machine
end

section
/-! PROOFS. A completed trigger frame: its CRC, the filter, and a code that no lane waits on and no binding matches (R102, R103, R105,
R106). -/

namespace Sys2Proof.Machine

/-! ### The CRC's bytes and its position (R102, R103) -/

theorem halfBytes_ofNat_beNat (a b : Byte) : halfBytes (BitVec.ofNat 16 (beNat [a, b])) = [a, b] := by
  have high : (BitVec.ofNat 16 (beNat [a, b])).extractLsb' 8 8 = a := by
    apply BitVec.eq_of_toNat_eq
    rw [BitVec.extractLsb'_toNat, Nat.shiftRight_eq_div_pow, BitVec.toNat_ofNat, beNat_pair]
    omega
  have low : (BitVec.ofNat 16 (beNat [a, b])).extractLsb' 0 8 = b := by
    apply BitVec.eq_of_toNat_eq
    rw [BitVec.extractLsb'_toNat, Nat.shiftRight_eq_div_pow, BitVec.toNat_ofNat, beNat_pair]
    omega
  unfold halfBytes
  rw [high, low]

/-- The position of a code is the top six bits of its CRC. -/
theorem filterPosition_val (crc : Half) : (filterPosition crc).val = crc.toNat / 1024 := by
  have bound := crc.isLt
  show (crc.extractLsb' 10 6).toNat = _
  rw [BitVec.extractLsb'_toNat, Nat.shiftRight_eq_div_pow]
  omega

theorem filterPosition_of_bytes {crc : Half} {e last : Byte} (h : halfBytes crc = [e, last]) :
    (filterPosition crc).val = e.toNat / 4 := by
  have high : crc.extractLsb' 8 8 = e := (List.cons.inj h).1
  have bound := crc.isLt
  rw [filterPosition_val, ← high, BitVec.extractLsb'_toNat, Nat.shiftRight_eq_div_pow]
  omega

section

variable {s : State} {c : Code} {e last : Byte}

/-- The last byte of a frame that a collecting receiver takes (R100). -/
theorem exec_triggerFrameComplete_trigFrame (rx : s.trg.rx = .collecting) (taken : s.trg.reception ≠ .dropped)
    (bytes : s.trg.bytes = codeBytes c ++ [e]) :
    exec (.triggerFrameComplete last) s = .next (s.frameTaken.trigFrame (codeBytes c ++ [e, last])) := by
  show Host.Outcome.next (s.trigByte last true) = _
  have on : s.trg.rx ≠ .off := by rw [rx]; exact RxState.noConfusion
  have held : s.trg.bytes ++ [last] = codeBytes c ++ [e, last] := by
    rw [bytes]
    rfl
  have five : ¬s.trg.bytes.length + 1 < 6 := by
    rw [bytes]
    exact Nat.lt_irrefl 6
  rw [State.trigByte_taken taken, State.noteTrg_on on, State.trigTake_collecting (by exact rx), if_pos rfl, if_neg (by exact five)]
  dsimp only
  rw [held]
  rfl

/-- A frame whose CRC is wrong is counted (R102). -/
theorem State.trigFrame_bad (h : halfBytes (crc16 (codeBytes c)) ≠ [e, last]) :
    s.trigFrame (codeBytes c ++ [e, last]) = s.counted 3 := by
  have wrong : crc16 (codeBytes c) ≠ BitVec.ofNat 16 (beNat [e, last]) := fun same =>
    h (by rw [same]; exact halfBytes_ofNat_beNat e last)
  exact if_pos wrong

/-- The filter stops a code exactly where a list stands and the code's position is not marked (R103). -/
theorem Trg.passes_eq_false {t : Trg} {crc : Half} :
    t.passes crc = false ↔ t.filterList ≠ [] ∧ t.filterTable.get (filterPosition crc) = false := by
  unfold Trg.passes
  rw [Bool.or_eq_false_iff, List.isEmpty_eq_false_iff]

/-! ### A code that nothing takes (R105, R106) -/

/-- No lane waits on the code and no binding matches it. -/
structure State.Unheard (s : State) (c : Code) : Prop where
  lanes : ∀ l : Fin 4, (s.lane l).wait ≠ some (.code c)
  bindings : ∀ i : Fin 32, (s.binding i).enabled = true → (s.binding i).code ≠ c

/-- The record that reports a code changes neither lanes nor bindings. -/
theorem State.Unheard.reported (h : s.Unheard c) : (s.reported c).Unheard c := by
  unfold State.reported
  split
  · constructor
    · intro l
      unfold State.postTrigger
      rw [State.lane_post]
      exact h.lanes l
    · intro i
      unfold State.postTrigger
      rw [State.binding_post]
      exact h.bindings i
  · exact h

theorem State.Unheard.routeCode (h : s.Unheard c) : s.routeCode c = (s.reported c).countUnbound c := by
  rw [State.routeCode_eq (State.reportCode_none h.reported.lanes) (State.fireBindings_none h.reported.bindings)]
  exact if_pos ⟨rfl, rfl⟩

namespace State.Unheard

theorem routeCode_nothing (h : s.Unheard c) (report : s.trg.report = .nothing) : s.routeCode c = s.counted 5 := by
  rw [h.routeCode, State.reported, if_neg (by rw [report]; exact Report.noConfusion), State.countUnbound,
    if_neg (by rw [report]; exact Report.noConfusion)]
  rfl

theorem routeCode_unbound (h : s.Unheard c) (report : s.trg.report = .unbound) :
    s.routeCode c = (s.counted 5).post .trigger 0 0 1 c := by
  rw [h.routeCode, State.reported, if_neg (by rw [report]; exact Report.noConfusion), State.countUnbound, if_pos report]
  rfl

theorem routeCode_all (h : s.Unheard c) (report : s.trg.report = .all) :
    s.routeCode c = (s.post .trigger 0 0 0 c).counted 5 := by
  have kept : (s.postTrigger 0 c).trg.report = .all := by
    unfold State.postTrigger
    rw [State.trg_post]
    exact report
  rw [h.routeCode, State.reported, if_pos report, State.countUnbound, if_neg (by rw [kept]; exact Report.noConfusion)]
  rfl

end State.Unheard

end

/-- Settles O50: the frame is taken, its CRC checked, its code filtered by the CRC's position, and a code that nothing takes counted. -/
theorem triggerFrameChecksAndReports : Obligations.TriggerFrameChecksAndReports := by
  unfold Obligations.TriggerFrameChecksAndReports
  intro c e last s rx taken bytes run hunting good stopped quiet
  have frame : run = .next (hunting.trigFrame (codeBytes c ++ [e, last])) := exec_triggerFrameComplete_trigFrame rx taken bytes
  have filtered (h : good) : run = .next (if hunting.trg.passes (crc16 (codeBytes c)) then hunting.routeCode c else hunting) := by
    rw [frame, ← h, State.trigFrame_good]
  have stops (h : good) : hunting.trg.passes (crc16 (codeBytes c)) = false ↔ stopped := by
    rw [Trg.passes_eq_false]
    have position := filterPosition_of_bytes h
    refine and_congr_right fun _ => ⟨fun unmarked k hk => ?_, fun unmarked => unmarked _ position⟩
    rw [Fin.ext (hk.trans position.symm)]
    exact unmarked
  refine ⟨fun bad => ?_, fun h stop => ?_, fun h pass quiet => ?_⟩
  · rw [frame, State.trigFrame_bad bad]
  · rw [filtered h, (stops h).2 stop]
    rfl
  · have unheard : hunting.Unheard c := ⟨quiet.1, quiet.2⟩
    have routed : run = .next (hunting.routeCode c) := by
      rw [filtered h, if_pos (Bool.eq_true_of_not_eq_false (mt (stops h).1 pass))]
    rw [routed]
    exact ⟨fun report => congrArg _ (unheard.routeCode_nothing report), fun report => congrArg _ (unheard.routeCode_unbound report),
      fun report => congrArg _ (unheard.routeCode_all report)⟩

end Sys2Proof.Machine
end

section
/-! PROOFS. FILTER SET, TRIGGER SET and the binding requests: their checks, the marks of a filter list, and what TRG takes (R103, R104,
R111 to R114). -/

namespace Sys2Proof.Machine

/-! ### Codes in range (R99, R107, R172) -/

theorem TrigRate.ofCode_code (r : TrigRate) : TrigRate.ofCode r.code = some r := by cases r <;> rfl

theorem Report.ofCode_code (p : Report) : Report.ofCode p.code = some p := by cases p <;> rfl

theorem BusyPolicy.ofCode_code (p : BusyPolicy) : BusyPolicy.ofCode p.code = some p := by cases p <;> rfl

theorem TrigRate.ofCode_of_gt {b : Byte} (h : 2 < b.toNat) : TrigRate.ofCode b = none := by
  unfold TrigRate.ofCode
  split
  case h_4 => rfl
  all_goals omega

theorem Report.ofCode_of_gt {b : Byte} (h : 2 < b.toNat) : Report.ofCode b = none := by
  unfold Report.ofCode
  split
  case h_4 => rfl
  all_goals omega

theorem BusyPolicy.ofCode_of_gt {b : Byte} (h : 2 < b.toNat) : BusyPolicy.ofCode b = none := by
  unfold BusyPolicy.ofCode
  split
  case h_4 => rfl
  all_goals omega

/-- Every byte up to 2 is the code of a trigger rate (R99). -/
theorem TrigRate.exists_code {b : Byte} (h : b.toNat ≤ 2) : ∃ r : TrigRate, r.code = b := by
  have hb : b.toNat = 0 ∨ b.toNat = 1 ∨ b.toNat = 2 := by omega
  rcases hb with e | e | e
  · exact ⟨.b9600, (BitVec.eq_of_toNat_eq e).symm⟩
  · exact ⟨.b19200, (BitVec.eq_of_toNat_eq e).symm⟩
  · exact ⟨.b38400, (BitVec.eq_of_toNat_eq e).symm⟩

/-! ### The fields of the requests (R111, R114) -/

theorem triggerOf_bad_rate {rate : Byte} (h : 2 < rate.toNat) (report : Byte) : triggerOf rate report = .error 0 := by
  unfold triggerOf
  rw [TrigRate.ofCode_of_gt h]

theorem triggerOf_bad_report {rate report : Byte} (hr : rate.toNat ≤ 2) (h : 2 < report.toNat) :
    triggerOf rate report = .error 1 := by
  obtain ⟨r, rfl⟩ := TrigRate.exists_code hr
  unfold triggerOf
  rw [TrigRate.ofCode_code, Report.ofCode_of_gt h]

theorem triggerOf_good (r : TrigRate) (p : Report) : triggerOf r.code p.code = .ok ⟨r, p⟩ := by
  unfold triggerOf
  rw [TrigRate.ofCode_code, Report.ofCode_code]

section

variable {w : BindingWire}

theorem bindingOf_bad_lane (h : 3 < w.lane.toNat) : bindingOf w = .error 6 := by
  unfold bindingOf
  rw [finOf_of_le (by omega)]

theorem bindingOf_bad_policy (hl : w.lane.toNat ≤ 3) (h : 2 < w.policy.toNat) : bindingOf w = .error 9 := by
  unfold bindingOf
  rw [finOf_of_lt (by omega), BusyPolicy.ofCode_of_gt h]

/-- The binding that a record spells, its holdoff not running (R111). -/
theorem bindingOf_good {l : Fin 4} {p : BusyPolicy} (hl : w.lane.toNat = l.val) (hp : p.code = w.policy) :
    bindingOf w = .ok { enabled := yesNo w.enabled, code := w.code, lane := l, entry := w.entry.toFin, clear := yesNo w.clear
                        policy := p, holdoff := w.holdoff.toNat, holdoffLeft := 0 } := by
  unfold bindingOf
  rw [hl, finOf_of_lt l.isLt, ← hp, BusyPolicy.ofCode_code]

end

/-! ### The marks of a filter list (R103, R104) -/

theorem get_foldl_marks (codes : List Code) (t : Table Bool 64) (k : Fin 64) :
    (codes.foldl (fun t c => t.set (filterPosition (codeCrc c)) true) t).get k = true
      ↔ t.get k = true ∨ ∃ c ∈ codes, filterPosition (codeCrc c) = k := by
  induction codes generalizing t with
  | nil => simp
  | cons c codes ih =>
    rw [List.foldl_cons, ih, Table.get_set]
    split
    · next h => simp [h]
    · next h => simp [h]

/-- A position is marked exactly where a listed code has it (R103). -/
theorem get_filterMarks (codes : List Code) (k : Fin 64) :
    (filterMarks codes).get k = true ↔ ∃ c ∈ codes, k.val = (crc16 (codeBytes c)).toNat / 1024 := by
  have position (c : Code) : filterPosition (codeCrc c) = k ↔ k.val = (crc16 (codeBytes c)).toNat / 1024 := by
    rw [Fin.ext_iff, filterPosition_val, codeCrc, be32_toNat, eq_comm]
  unfold filterMarks
  rw [get_foldl_marks, Table.get_const]
  simp [position]

theorem markedCount_eq (t : Table Bool 64) : markedCount t = t.cells.count true :=
  List.countP_congr fun b _ => by cases b <;> rfl

/-! ### Requests that change TRG (R164 to R166) -/

section

variable {s : State}

/-- A request that its owner answers with data, beside another state. -/
theorem State.request_replies {t : State} (h : s.takesRequests) {type : Byte} (ht : type.toNat < 0x80) (tag : Byte) {f : Taking}
    {a : Answer} (hf : f s.oweReply = (a, t.oweReply)) :
    Host.Outcome.next (ρ := Refusal) (φ := Fault) (s.request tag type f) = .next (t.replying tag (type + 0x80) a.status a.data) := by
  rw [State.request_taken h, hf]
  dsimp only
  rw [State.sendReply_oweReply, replyType_of_lt ht]

/-- TRG takes new settings: a new rate restarts the receiver and drops a byte in reception (R114). -/
theorem Trg.take_eq (t : Trg) (r : TrigRate) (p : Report) :
    t.take ⟨r, p⟩ = if r = t.rate then { t with report := p }
      else { t with rate := r, report := p, rx := .hunting, bytes := [], gap := 0
                    reception := if t.reception = .idle then .idle else .dropped } := by
  unfold Trg.take
  rw [Reception.drop_eq]
  rfl

/-- BIND READ's data: the record at offsets 1 to 10, then the holdoff left (R113, R174, R176). -/
theorem bindingBytes_eq (b : Binding) : bindingBytes b = [if b.enabled then 1 else 0] ++ codeBytes b.code
    ++ [BitVec.ofNat 8 b.lane.val, BitVec.ofNat 8 b.entry.val, if b.clear then 1 else 0, b.policy.code, BitVec.ofNat 8 b.holdoff] := by
  unfold bindingBytes
  rw [be32_toNat]
  rfl

end

/-! ### The owner's answers (R104, R111 to R114) -/

section

variable {s : State} {count : Byte} {codes : List Code}

theorem doFilterSet_over (h : codes.length = count.toNat) (many : 32 < count.toNat) : doFilterSet count codes s = badField s 0 := by
  unfold doFilterSet
  rw [if_neg (not_not.2 h), if_pos many]

theorem doFilterSet_busy (h : codes.length = count.toNat) (most : count.toNat ≤ 32) (busy : s.commitInFlight = true) :
    doFilterSet count codes s = refuse s .busy := by
  unfold doFilterSet
  rw [if_neg (not_not.2 h), if_neg (not_lt.2 most), if_pos busy]

/-- The list is taken with its marks, which the reply counts. -/
theorem doFilterSet_taken (h : codes.length = count.toNat) (most : count.toNat ≤ 32) (idle : s.commitInFlight = false) :
    doFilterSet count codes s
      = (⟨.ok, [BitVec.ofNat 8 ((filterMarks codes).cells.count true)]⟩, { s with trg := s.trg.setFilter codes }) := by
  unfold doFilterSet
  rw [if_neg (not_not.2 h), if_neg (not_lt.2 most), if_neg (ne_true_of_eq_false idle), ← markedCount_eq]
  rfl

end

section

variable {s : State} {w : BindingWire} {i : Fin 32}

theorem finOf_binding {binding : Byte} (h : binding.toNat = i.val) : finOf 32 binding.toNat = some i := by
  rw [h]
  exact finOf_of_lt i.isLt

theorem doBindSet_error {k : Nat} (h : w.binding.toNat = i.val) (bad : bindingOf w = .error k) : doBindSet w s = badField s k := by
  unfold doBindSet
  rw [finOf_binding h]
  dsimp only
  rw [bad]

theorem doBindSet_ok {b : Binding} (h : w.binding.toNat = i.val) (good : bindingOf w = .ok b) :
    doBindSet w s = if s.commitInFlight then refuse s .busy else (Answer.ok, s.setBinding i b) := by
  unfold doBindSet
  rw [finOf_binding h]
  dsimp only
  rw [good]

theorem doBindClear_good {binding : Byte} (h : binding.toNat = i.val) : doBindClear binding s
    = if s.commitInFlight then refuse s .busy
      else (Answer.ok, s.setBinding i { s.binding i with enabled := false, holdoffLeft := 0 }) := by
  unfold doBindClear
  rw [finOf_binding h]

/-- The record, then the holdoff left. -/
theorem doBindRead_good {binding : Byte} (h : binding.toNat = i.val) : doBindRead binding s
    = (⟨.ok, binding :: bindingBytes (s.binding i) ++ be16 (s.binding i).holdoffLeft⟩, s) := by
  unfold doBindRead
  rw [finOf_binding h]

end

section

variable {s : State} {tag : Byte}

theorem exec_triggerSet_bad {rate report : Byte} {k : Nat} (hs : s.takesRequests) (bad : triggerOf rate report = .error k) :
    exec (.triggerSet tag rate report) s = .next (s.replying tag 0xBC .badField [BitVec.ofNat 8 k]) := by
  refine State.request_badField hs (type := 0x3C) (by decide) tag ?_
  unfold doTriggerSet
  rw [bad]

theorem exec_triggerSet_good {r : TrigRate} {p : Report} (hs : s.takesRequests) :
    (s.commitInFlight = true → exec (.triggerSet tag r.code p.code) s = .next (s.replying tag 0xBC .busy []))
    ∧ (s.commitInFlight = false → exec (.triggerSet tag r.code p.code) s
      = .next (State.replying { s with trg := s.trg.take ⟨r, p⟩ } tag 0xBC .ok [])) := by
  have taken : doTriggerSet r.code p.code s.oweReply = if s.commitInFlight then refuse s.oweReply .busy
      else (Answer.ok, ({ s with trg := s.trg.take ⟨r, p⟩ }).oweReply) := by
    unfold doTriggerSet
    rw [triggerOf_good]
    rfl
  refine ⟨fun busy => ?_, fun idle => ?_⟩
  · rw [if_pos busy] at taken
    exact State.request_answers hs (type := 0x3C) (t := s) (by decide) tag taken
  · rw [if_neg (ne_true_of_eq_false idle)] at taken
    exact State.request_answers hs (type := 0x3C) (by decide) tag taken

/-- A binding number above 31 (R111 to R113). -/
theorem exec_binding_bad {w : BindingWire} (hs : s.takesRequests) (h : 31 < w.binding.toNat) :
    exec (.bindSet tag w) s = .next (s.replying tag 0xB9 .badField [0])
    ∧ exec (.bindClear tag w.binding) s = .next (s.replying tag 0xBA .badField [0])
    ∧ exec (.bindRead tag w.binding) s = .next (s.replying tag 0xBB .badField [0]) := by
  have none : finOf 32 w.binding.toNat = none := finOf_of_le (by omega)
  refine ⟨State.request_badField hs (type := 0x39) (by decide) tag ?_, State.request_badField hs (type := 0x3A) (by decide) tag ?_,
    State.request_badField hs (type := 0x3B) (by decide) tag ?_⟩
  · unfold doBindSet
    rw [none]
  · unfold doBindClear
    rw [none]
  · unfold doBindRead
    rw [none]

end

/-- Settles O52: each request by its owner's checks in their order, and what TRG takes. -/
theorem triggerAndBindingRequests : Obligations.TriggerAndBindingRequests := by
  unfold Obligations.TriggerAndBindingRequests
  refine ⟨fun tag count codes s hs => ⟨fun h => ?_, fun h many => ?_, fun h most busy => ?_, fun h most idle => ?_⟩,
    fun tag rate report s hs => ⟨fun bad => ?_, fun hr bad => ?_, ?_⟩, fun tag w s hs => ⟨exec_binding_bad hs, ?_⟩⟩
  · exact State.request_answers hs (type := 0x38) (t := s) (by decide) tag (if_pos h)
  · exact State.request_badField hs (type := 0x38) (by decide) tag (doFilterSet_over h many)
  · exact State.request_answers hs (type := 0x38) (t := s) (by decide) tag (doFilterSet_busy h most busy)
  · exact ⟨filterMarks codes, get_filterMarks codes, State.request_replies hs (type := 0x38)
      (t := { s with trg := s.trg.setFilter codes }) (by decide) tag (doFilterSet_taken (s := s.oweReply) h most idle)⟩
  · exact exec_triggerSet_bad hs (triggerOf_bad_rate bad report)
  · exact exec_triggerSet_bad hs (triggerOf_bad_report hr bad)
  · rintro r p rfl rfl
    rw [← Trg.take_eq]
    exact exec_triggerSet_good hs
  · intro i h b bind
    refine ⟨fun bad => ?_, fun hl bad => ?_, fun l p hl hp => ⟨fun busy => ?_, fun idle => ?_⟩, fun busy => ?_, fun idle => ?_, ?_⟩
    · exact State.request_badField hs (type := 0x39) (by decide) tag (doBindSet_error h (bindingOf_bad_lane bad))
    · exact State.request_badField hs (type := 0x39) (by decide) tag (doBindSet_error h (bindingOf_bad_policy hl bad))
    · exact State.request_answers hs (type := 0x39) (t := s) (by decide) tag
        ((doBindSet_ok h (bindingOf_good hl hp)).trans (if_pos busy))
    · exact State.request_answers hs (type := 0x39) (t := bind _) (by decide) tag
        ((doBindSet_ok h (bindingOf_good hl hp)).trans (if_neg (ne_true_of_eq_false idle)))
    · exact State.request_answers hs (type := 0x3A) (t := s) (by decide) tag ((doBindClear_good h).trans (if_pos busy))
    · exact State.request_answers hs (type := 0x3A) (t := bind _) (by decide) tag
        ((doBindClear_good h).trans (if_neg (ne_true_of_eq_false idle)))
    · have read := State.request_unchanged hs tag 0x3B (doBindRead w.binding) _ (doBindRead_good h)
      rw [bindingBytes_eq] at read
      exact congrArg Host.Outcome.next read

end Sys2Proof.Machine
end

section
/-! PROOFS. The gap counts of the two receivers, in a frame and ahead of it (R101, R162). -/

namespace Sys2Proof.Machine

/-! ### The tallies beside the frame work of the voices (R13, R29, R152) -/

/-- No tally but EVENTS_LOST has changed. -/
structure LosesOnly (s t : State) : Prop where
  tally : ∀ i : Fin 11, i ≠ 7 → t.evq.tallies.get i = s.evq.tallies.get i

namespace LosesOnly

theorem of_evq {s t : State} (h : t.evq = s.evq) : LosesOnly s t := ⟨fun _ _ => by rw [h]⟩

theorem trans {s t u : State} (h : LosesOnly s t) (k : LosesOnly t u) : LosesOnly s u :=
  ⟨fun i hi => (k.tally i hi).trans (h.tally i hi)⟩

/-- A record that is dropped counts in EVENTS_LOST alone (R152). -/
theorem post (s : State) (k : EventKind) (n : Nat) (g r : Byte) (x : BitVec 32) : LosesOnly s (s.post k n g r x) := by
  refine ⟨fun i hi => ?_⟩
  unfold State.post
  split
  · rfl
  · exact Table.get_set_of_ne _ hi.symm _

theorem endStart (s : State) (v : Fin 16) (x : Sounding) (g : Byte) (r : EndReason) : LosesOnly s (s.endStart v x g r) := by
  refine ⟨fun i hi => ?_⟩
  rw [State.endStart_eq]
  dsimp only
  unfold State.noted
  split
  · exact (post ..).tally i hi
  · rfl

theorem endFree (s : State) (v : Fin 16) (x : Sounding) (r : EndReason) : LosesOnly s (s.endFree v x r) :=
  (endStart s v x (s.voice v).generation r).trans (of_evq rfl)

theorem completeCut (s : State) (v : Fin 16) (x : Sounding) (c : Cut) (z : Option Successor) :
    LosesOnly s (s.completeCut v x c z) := by
  unfold State.completeCut
  refine (endStart s v x c.generation c.reason.endReason).trans ?_
  dsimp only
  split
  · exact of_evq rfl
  · split <;> exact of_evq rfl

theorem advanceRamp (s : State) (v : Fin 16) (x : Sounding) (b : Sounding → VoiceBody) (releasing : Bool) :
    LosesOnly s (s.advanceRamp v x b releasing) := by
  unfold State.advanceRamp
  split
  · exact of_evq rfl
  · next p _ =>
    split
    · exact of_evq rfl
    · next level _ =>
      have arrived : LosesOnly s (s.rampArrives v x p level) := by
        unfold State.rampArrives
        split
        · exact post ..
        · exact of_evq rfl
      have moved : LosesOnly s ((s.rampArrives v x p level).setBody v (b { x with level, ramp := none })) := arrived.trans (of_evq rfl)
      dsimp only
      split
      · exact moved.trans (endFree ..)
      · exact moved

theorem soundingFrame (s : State) (v : Fin 16) (x : Sounding) (b : Sounding → VoiceBody) (releasing : Bool) :
    LosesOnly s (s.soundingFrame v x b releasing) := by
  unfold State.soundingFrame
  split
  · exact of_evq rfl
  · next r _ =>
    have given : LosesOnly s (s.setContribution v (soundingContribution s.mem r x)) := of_evq rfl
    dsimp only
    split
    · exact given.trans (endFree ..)
    · exact given.trans (advanceRamp ..)

theorem cutFrame (s : State) (v : Fin 16) (x : Sounding) (c : Cut) (z : Option Successor) : LosesOnly s (s.cutFrame v x c z) := by
  have given (a : Int × Int) : LosesOnly s (s.setContribution v a) := of_evq rfl
  unfold State.cutFrame
  split
  · exact given _
  · dsimp only
    split
    · exact (given _).trans (completeCut ..)
    · split
      · exact (given _).trans (completeCut ..)
      · exact of_evq rfl

/-- The frame work of a voice (R2, R3, R11). -/
theorem voiceFrame (s : State) (v : Fin 16) : LosesOnly s (s.voiceFrame v) := by
  unfold State.voiceFrame
  split
  · exact of_evq rfl
  · exact of_evq rfl
  · exact soundingFrame ..
  · exact soundingFrame ..
  · exact cutFrame ..

theorem voicesThrough (s : State) (last : Nat) : LosesOnly s (s.voicesThrough last) := by
  rw [State.voicesThrough_eq]
  exact List.foldlRecOn _ _ (of_evq rfl : LosesOnly s s) fun t h v _ => h.trans (voiceFrame t v)

end LosesOnly

/-! ### What a frame leaves of the two receivers beside their gap counts (log 4) -/

/-- The host receiver and LINK_FRAMING are as they were. -/
structure SameHost (s t : State) : Prop where
  lnk : t.lnk = s.lnk
  count : t.evq.tallies.get 1 = s.evq.tallies.get 1

/-- The trigger receiver and TRIG_FRAMING are as they were. -/
structure SameTrig (s t : State) : Prop where
  trg : t.trg = s.trg
  count : t.evq.tallies.get 4 = s.evq.tallies.get 4

theorem SameHost.trans {s t u : State} (h : SameHost s t) (k : SameHost t u) : SameHost s u :=
  ⟨k.lnk.trans h.lnk, k.count.trans h.count⟩

theorem SameTrig.trans {s t u : State} (h : SameTrig s t) (k : SameTrig t u) : SameTrig s u :=
  ⟨k.trg.trans h.trg, k.count.trans h.count⟩

section

variable (s : State)

/-- The voices and the mix touch neither receiver. -/
theorem State.same_voices : SameHost s (s.voicesThrough 15) ∧ SameTrig s (s.voicesThrough 15) := by
  have tallies := LosesOnly.voicesThrough s 15
  have untouched : Moves.Untouched s (s.voicesThrough 15) := by
    rw [State.voicesThrough_eq]
    exact (Moves.foldl _ Moves.voiceFrame ..).untouched
  exact ⟨⟨untouched.lnk, tallies.tally 1 (by decide)⟩, ⟨untouched.trg, tallies.tally 4 (by decide)⟩⟩

theorem State.same_mixFrame : SameHost s s.mixFrame ∧ SameTrig s s.mixFrame := by
  rw [State.mixFrame_eq]
  split
  · exact ⟨⟨rfl, Table.get_set_of_ne _ (by decide) _⟩, ⟨rfl, Table.get_set_of_ne _ (by decide) _⟩⟩
  · exact ⟨⟨rfl, rfl⟩, ⟨rfl, rfl⟩⟩

theorem State.sameTrig_hostGapShare : SameTrig s s.hostGapShare := by
  unfold State.hostGapShare State.hostGapFrame
  split
  · exact ⟨rfl, rfl⟩
  · split
    · split
      · exact ⟨rfl, Table.get_set_of_ne _ (by decide) _⟩
      · exact ⟨rfl, rfl⟩
    · exact ⟨rfl, rfl⟩

theorem State.sameHost_trigGapShare : SameHost s s.trigGapShare := by
  unfold State.trigGapShare State.trigGapFrame
  split
  · exact ⟨rfl, rfl⟩
  · split
    · split
      · exact ⟨rfl, Table.get_set_of_ne _ (by decide) _⟩
      · exact ⟨rfl, rfl⟩
    · exact ⟨rfl, rfl⟩

end

/-! ### The gap counts (R101, R162) -/

theorem Lnk.gapCounts_iff (l : Lnk) : l.gapCounts = true ↔ l.rx = .collecting ∧ l.reception = .idle := by simp [Lnk.gapCounts]

theorem Trg.gapCounts_iff (t : Trg) : t.gapCounts = true ↔ t.rx = .collecting ∧ t.reception = .idle := by simp [Trg.gapCounts]

theorem Lnk.gapEndsNext_iff (l : Lnk) : l.gapEndsNext = true ↔ l.rx = .collecting ∧ l.reception = .idle ∧ l.gap ≤ 1 := by
  simp [Lnk.gapEndsNext, Lnk.gapCounts_iff, and_assoc]

theorem Trg.gapEndsNext_iff (t : Trg) : t.gapEndsNext = true ↔ t.rx = .collecting ∧ t.reception = .idle ∧ t.gap ≤ 1 := by
  simp [Trg.gapEndsNext, Trg.gapCounts_iff, and_assoc]

/-- The host receiver has the coming frame still to count. -/
def State.hostCounts (s : State) : Prop := s.progress.hostGap = false ∧ s.lnk.rx = .collecting ∧ s.lnk.reception = .idle

/-- The trigger receiver has the coming frame still to count. -/
def State.trigCounts (s : State) : Prop := s.progress.trigGap = false ∧ s.trg.rx = .collecting ∧ s.trg.reception = .idle

/-- What a frame makes of the host receiver and of LINK_FRAMING. -/
structure HostCount (s t : State) : Prop where
  lowered : s.hostCounts → 1 < s.lnk.gap → t.lnk = { s.lnk with gap := s.lnk.gap - 1 }
  ended : s.hostCounts → s.lnk.gap ≤ 1 → t.lnk = { s.lnk with rx := .hunting, bytes := [], frameLength := none, gap := 0 }
    ∧ t.evq.tallies.get 1 = min 65535 (s.evq.tallies.get 1 + 1)
  still : ¬s.hostCounts → t.lnk = s.lnk ∧ t.evq.tallies.get 1 = s.evq.tallies.get 1

/-- What a frame makes of the trigger receiver and of TRIG_FRAMING. -/
structure TrigCount (s t : State) : Prop where
  lowered : s.trigCounts → 1 < s.trg.gap → t.trg = { s.trg with gap := s.trg.gap - 1 }
  ended : s.trigCounts → s.trg.gap ≤ 1 → t.trg = { s.trg with rx := .hunting, bytes := [], gap := 0 }
    ∧ t.evq.tallies.get 4 = min 65535 (s.evq.tallies.get 4 + 1)
  still : ¬s.trigCounts → t.trg = s.trg ∧ t.evq.tallies.get 4 = s.evq.tallies.get 4

section

variable {s t u v : State}

/-- The count's own share is what a frame makes of the receiver, whatever comes before and after it. -/
theorem HostCount.of_same (h : HostCount u v) (progress : u.progress = s.progress) (before : SameHost s u) (after : SameHost v t) :
    HostCount s t := by
  obtain ⟨lowered, ended, still⟩ := h
  unfold State.hostCounts at lowered ended still
  rw [progress, before.lnk, ← after.lnk] at lowered ended still
  rw [before.count, ← after.count] at ended still
  exact ⟨lowered, ended, still⟩

theorem TrigCount.of_same (h : TrigCount u v) (progress : u.progress = s.progress) (before : SameTrig s u) (after : SameTrig v t) :
    TrigCount s t := by
  obtain ⟨lowered, ended, still⟩ := h
  unfold State.trigCounts at lowered ended still
  rw [progress, before.trg, ← after.trg] at lowered ended still
  rw [before.count, ← after.count] at ended still
  exact ⟨lowered, ended, still⟩

/-- The frame that was collected is discarded (R162). -/
theorem State.hostGapFrame_ends (counts : s.lnk.gapCounts = true) (last : s.lnk.gap ≤ 1) :
    s.hostGapFrame = State.counted { s with lnk := { s.lnk with rx := .hunting, bytes := [], frameLength := none, gap := 0 } } 1 := by
  unfold State.hostGapFrame
  rw [if_pos counts, if_pos last]
  rfl

/-- The frame that was collected is discarded (R101). -/
theorem State.trigGapFrame_ends (counts : s.trg.gapCounts = true) (last : s.trg.gap ≤ 1) :
    s.trigGapFrame = State.counted { s with trg := { s.trg with rx := .hunting, bytes := [], gap := 0 } } 4 := by
  unfold State.trigGapFrame
  rw [if_pos counts, if_pos last]
  rfl

theorem State.hostCount_hostGapShare (s : State) : HostCount s s.hostGapShare := by
  have shares (h : s.hostCounts) : s.hostGapShare = s.hostGapFrame := if_neg (ne_true_of_eq_false h.1)
  have counts (h : s.hostCounts) : s.lnk.gapCounts = true := s.lnk.gapCounts_iff.2 h.2
  refine ⟨fun h left => ?_, fun h last => ?_, fun h => ?_⟩
  · rw [shares h, State.hostGapFrame, if_pos (counts h), if_neg (not_le.2 left)]
  · rw [shares h, State.hostGapFrame_ends (counts h) last]
    exact ⟨rfl, Table.get_set_self ..⟩
  · have same : s.hostGapShare = s := by
      unfold State.hostGapShare State.hostGapFrame
      split
      · rfl
      · next share => exact if_neg fun counts => h ⟨Bool.eq_false_of_not_eq_true share, s.lnk.gapCounts_iff.1 counts⟩
    rw [same]
    exact ⟨rfl, rfl⟩

theorem State.trigCount_trigGapShare (s : State) : TrigCount s s.trigGapShare := by
  have shares (h : s.trigCounts) : s.trigGapShare = s.trigGapFrame := if_neg (ne_true_of_eq_false h.1)
  have counts (h : s.trigCounts) : s.trg.gapCounts = true := s.trg.gapCounts_iff.2 h.2
  refine ⟨fun h left => ?_, fun h last => ?_, fun h => ?_⟩
  · rw [shares h, State.trigGapFrame, if_pos (counts h), if_neg (not_le.2 left)]
  · rw [shares h, State.trigGapFrame_ends (counts h) last]
    exact ⟨rfl, Table.get_set_self ..⟩
  · have same : s.trigGapShare = s := by
      unfold State.trigGapShare State.trigGapFrame
      split
      · rfl
      · next share => exact if_neg fun counts => h ⟨Bool.eq_false_of_not_eq_true share, s.trg.gapCounts_iff.1 counts⟩
    rw [same]
    exact ⟨rfl, rfl⟩

/-- A frame without a tick: the voices and the mix come before the two counts, and nothing after them touches a receiver (log 4). -/
theorem State.counts_frame (sub : s.out.frameSub + 1 < 32) : HostCount s s.frame ∧ TrigCount s s.frame := by
  have voices := s.same_voices
  have mix := (s.voicesThrough 15).same_mixFrame
  have progress := ((SameTick.voicesThrough s 15).trans (.mixFrame _)).progress
  have ticks := SameTick.beforeTick s
  have hostBefore := voices.1.trans mix.1
  have trigBefore := voices.2.trans mix.2
  unfold State.frame
  generalize (s.voicesThrough 15).mixFrame = u at progress ticks hostBefore trigBefore
  rw [State.endFrame_no_tick (by rw [ticks.sub]; exact sub)]
  constructor
  · refine u.hostCount_hostGapShare.of_same progress hostBefore ?_
    exact ⟨u.hostGapShare.sameHost_trigGapShare.lnk, u.hostGapShare.sameHost_trigGapShare.count⟩
  · refine u.hostGapShare.trigCount_trigGapShare.of_same ?_ (trigBefore.trans u.sameTrig_hostGapShare) ⟨rfl, rfl⟩
    exact (SameTick.hostGapShare u).progress.trans progress

/-! ### The commands that take a gap count ahead (log 3) -/

theorem exec_hostGapTimeout (on : s.power = true) (share : s.progress.hostGap = false) (ends : s.lnk.gapEndsNext = true) :
    exec .hostGapTimeout s = .next { s.hostGapFrame with progress := { s.progress with hostGap := true } } := by
  show Host.Outcome.next s.hostGapAhead = _
  unfold State.hostGapAhead
  rw [on, share, ends]
  rfl

theorem exec_hostGapTimeout_idle (h : ¬s.lnk.gapEndsNext = true) : exec .hostGapTimeout s = .next s := by
  show Host.Outcome.next s.hostGapAhead = _
  unfold State.hostGapAhead
  rw [Bool.eq_false_of_not_eq_true h, Bool.and_false]
  rfl

theorem exec_trigGapTimeout (on : s.power = true) (share : s.progress.trigGap = false) (ends : s.trg.gapEndsNext = true) :
    exec .trigGapTimeout s = .next { s.trigGapFrame with progress := { s.progress with trigGap := true } } := by
  show Host.Outcome.next s.trigGapAhead = _
  unfold State.trigGapAhead
  rw [on, share, ends]
  rfl

theorem exec_trigGapTimeout_idle (h : ¬s.trg.gapEndsNext = true) : exec .trigGapTimeout s = .next s := by
  show Host.Outcome.next s.trigGapAhead = _
  unfold State.trigGapAhead
  rw [Bool.eq_false_of_not_eq_true h, Bool.and_false]
  rfl

end

/-- Settles O49: the commands by the count that ends next, and the frame by the count's own share, which nothing else in it touches. -/
theorem gapCountsRunOut : Obligations.GapCountsRunOut := by
  unfold Obligations.GapCountsRunOut
  refine ⟨fun s on => ⟨fun share => ⟨fun rx idle last => ?_, fun h => ?_⟩, fun share => ⟨fun rx idle last => ?_, fun h => ?_⟩⟩,
    fun s on sub => ?_⟩
  · rw [exec_hostGapTimeout on share (s.lnk.gapEndsNext_iff.2 ⟨rx, idle, last⟩),
      State.hostGapFrame_ends (s.lnk.gapCounts_iff.2 ⟨rx, idle⟩) last]
  · refine exec_hostGapTimeout_idle fun ends => ?_
    obtain ⟨rx, idle, last⟩ := s.lnk.gapEndsNext_iff.1 ends
    exact h.elim (· rx) (Or.elim · (· idle) (not_lt.2 last))
  · rw [exec_trigGapTimeout on share (s.trg.gapEndsNext_iff.2 ⟨rx, idle, last⟩),
      State.trigGapFrame_ends (s.trg.gapCounts_iff.2 ⟨rx, idle⟩) last]
  · refine exec_trigGapTimeout_idle fun ends => ?_
    obtain ⟨rx, idle, last⟩ := s.trg.gapEndsNext_iff.1 ends
    exact h.elim (· rx) (Or.elim · (· idle) (not_lt.2 last))
  · obtain ⟨host, trig⟩ := State.counts_frame sub
    exact ⟨s.frame, exec_frame on, host.lowered, host.ended, host.still, trig.lowered, trig.ended, trig.still⟩

end Sys2Proof.Machine
end

section
/-! PROOFS. What a step makes of the state, said once: a series of updates, each of one block of the part. A law that each update keeps
is kept by every step. -/

namespace Sys2Proof.Machine

/-- A series of the updates that commands make. Voices, allocator and lanes move, the owner of a request takes it, the receivers and
the output block go on, what waits is taken from its queue, a store step ends or counts, and the part is reset or loaded. -/
inductive Updates : State → State → Prop
  | trans {s t u} : Updates s t → Updates t u → Updates s u
  | moves {s t} : Moves s t → Updates s t
  | owner {f : Taking} : RequestOwner f → ∀ s, Updates s (f s).2
  | link (s : State) (x) : Updates s { s with lnk := x }
  | trigger (s : State) (x) : Updates s { s with trg := x }
  | output (s : State) (o p) : Updates s { s with out := o, progress := p }
  | queues (s : State) (signals due commands) : Updates s { s with signals := signals, autostartDue := due, pending := commands }
  | pin (s : State) (n) : Updates s { s with nrst := n }
  | stepDone (s : State) : Updates s s.stepDone
  | tickStore (s : State) : Updates s s.tickStore
  | coldReset (s : State) : Updates s s.coldReset
  | powerOn (s : State) : Updates s s.powerOn
  | powerOff (s : State) : Updates s s.powerOff
  | load (s : State) : Updates s s.load

namespace Updates

variable {s t : State}

theorem refl (s : State) : Updates s s := moves (.refl s)

theorem raise (s : State) (k : Tally) : Updates s (s.raise k) := moves (.raise ..)

theorem ite (h : Updates s t) (b : Bool) : Updates s (if b = true then t else s) := by
  split
  · exact h
  · exact refl s

/-- A share that has been taken already, or is taken now. -/
theorem share (h : Updates s t) (taken : Bool) : Updates s (if taken = true then s else t) := by
  split
  · exact refl s
  · exact h

/-! ### The host line (R161 to R166) -/

theorem takeRequest {f : Taking} (owner : RequestOwner f) (s : State) (tag type : Byte) : Updates s (s.takeRequest tag type f) :=
  ((link s _).trans (.owner owner _)).trans (link ..)

theorem request {f : Taking} (owner : RequestOwner f) (s : State) (tag type : Byte) : Updates s (s.request tag type f) := by
  unfold State.request
  split
  · exact refl s
  · split
    · exact raise ..
    · exact takeRequest owner ..

theorem takeFrame (s : State) (bytes : List Byte) (length : Nat) : Updates s (s.takeFrame bytes length) := by
  unfold State.takeFrame
  dsimp only
  split
  · exact raise ..
  · split
    · exact raise ..
    · exact takeRequest (.requestOf _ _) ..

theorem discardFrame (s : State) : Updates s s.discardFrame := (link ..).trans (raise ..)

theorem keepByte (s : State) (held : List Byte) : Updates s (s.keepByte held) := by
  unfold State.keepByte
  split
  · exact link ..
  · split
    · exact discardFrame s
    · split
      · exact link ..
      · exact (link ..).trans (takeFrame ..)

theorem hostTake (s : State) (b : Byte) (good : Bool) : Updates s (s.hostTake b good) := by
  unfold State.hostTake
  split
  · exact refl s
  · split
    · exact link ..
    · exact refl s
  · split
    · exact keepByte ..
    · exact discardFrame s

theorem noteLnk (s : State) (r : Reception) : Updates s (s.noteLnk r) := by
  unfold State.noteLnk
  split
  · exact refl s
  · exact link ..

theorem hostByte (s : State) (b : Byte) (good : Bool) : Updates s (s.hostByte b good) := by
  unfold State.hostByte
  split
  · exact noteLnk ..
  · exact (noteLnk ..).trans (hostTake ..)

theorem hostLine (s : State) (good : Bool) (e : LineEvent) : Updates s (s.hostLine good e) := by
  cases e with
  | startBit => exact noteLnk ..
  | byte b => exact hostByte ..

theorem hostGapFrame (s : State) : Updates s s.hostGapFrame := by
  unfold State.hostGapFrame
  split
  · split
    · exact discardFrame s
    · exact link ..
  · exact refl s

/-! ### The trigger line (R100 to R110) -/

theorem bindingActs (s : State) (i : Fin 32) : Updates s (s.bindingActs i) := by
  have loaded : Updates s (s.loadHoldoff i) := trigger ..
  have start := loaded.trans (moves (.bindingStart (s.loadHoldoff i) i (s.binding i)))
  unfold State.bindingActs
  dsimp only
  rw [← State.loadHoldoff]
  split
  · exact raise ..
  · split
    · next e => rw [e] at start; exact start.trans (raise ..)
    · next e => rw [e] at start; exact start

theorem fireBindings (s : State) (c : Code) : Updates s (s.fireBindings c).2 := by
  rw [State.fireBindings_eq]
  exact List.foldlRecOn _ _ (refl s) fun t h i _ => h.trans (bindingActs t i)

/-- The routing of a code: what is reported of it is posted, the lanes that wait on it wake, and its bindings act (R105). -/
theorem routeCode (s : State) (c : Code) : Updates s (s.routeCode c) := by
  have posted (b : Prop) [Decidable b] (r : Byte) (u : State) : Updates u (if b then u.postTrigger r c else u) := by
    split
    · exact moves (.post ..)
    · exact refl u
  rcases woke : (s.reported c).reportCode c with ⟨n, t⟩
  rcases acted : t.fireBindings c with ⟨m, u⟩
  have woken := (posted (s.trg.report = .all) 0 s).trans (moves (.reportCode (s.reported c) c))
  have fired := fireBindings t c
  rw [woke] at woken
  rw [acted] at fired
  rw [State.routeCode_eq woke acted]
  refine woken.trans (fired.trans ?_)
  split
  · exact (raise u .trigUnbound).trans (posted (u.trg.report = .unbound) ..)
  · exact refl u

theorem trigFrame (s : State) (held : List Byte) : Updates s (s.trigFrame held) := by
  unfold State.trigFrame
  dsimp only
  split
  · exact raise ..
  · split
    · exact routeCode ..
    · exact refl s

theorem noteTrg (s : State) (r : Reception) : Updates s (s.noteTrg r) := by
  unfold State.noteTrg
  split
  · exact refl s
  · exact trigger ..

theorem trigTake (s : State) (b : Byte) (good : Bool) : Updates s (s.trigTake b good) := by
  unfold State.trigTake
  split
  · exact refl s
  · split
    · exact trigger ..
    · exact refl s
  · split
    · dsimp only
      split
      · exact trigger ..
      · exact (trigger ..).trans (trigFrame ..)
    · exact (trigger ..).trans (raise ..)

theorem trigByte (s : State) (b : Byte) (good : Bool) : Updates s (s.trigByte b good) := by
  unfold State.trigByte
  split
  · exact noteTrg ..
  · exact (noteTrg ..).trans (trigTake ..)

theorem trigLine (s : State) (good : Bool) (e : LineEvent) : Updates s (s.trigLine good e) := by
  cases e with
  | startBit => exact noteTrg ..
  | byte b => exact trigByte ..

theorem trigGapFrame (s : State) : Updates s s.trigGapFrame := by
  unfold State.trigGapFrame
  split
  · split
    · exact (trigger ..).trans (raise ..)
    · exact trigger ..
  · exact refl s

/-! ### Time (R137, R138, log 3) -/

theorem voicesThrough (s : State) (last : Nat) : Updates s (s.voicesThrough last) := by
  rw [State.voicesThrough_eq]
  exact moves (.foldl _ .voiceFrame ..)

theorem mixFrame (s : State) : Updates s s.mixFrame := by
  have mixed : Updates s { s with out := s.mixedOut } := output s _ s.progress
  rw [State.mixFrame_eq]
  split
  · exact mixed.trans (raise ..)
  · exact mixed

theorem countShare (s : State) : Updates s s.countShare := by
  unfold State.countShare
  split
  · exact refl s
  · exact output s _ s.progress

theorem lanesThrough (s : State) (last : Nat) : Updates s (s.lanesThrough last) := by
  have settled : Moves s s.settleTicked := by
    unfold State.settleTicked
    split
    · exact .refl s
    · exact .settle ..
  unfold State.lanesThrough
  split
  · exact refl s
  · exact moves (settled.trans (.tickInTurn ..))

theorem tickHoldoffs (s : State) : Updates s s.tickHoldoffs := trigger ..

theorem tickRest (s : State) : Updates s s.tickRest :=
  (((countShare s).trans (lanesThrough ..)).trans (share (tickHoldoffs _) _)).trans (share (tickStore _) _)

theorem frame (s : State) : Updates s s.frame := by
  have ended (u : State) : Updates u u.endFrame := ((tickRest u).ite u.tickComes).trans (output ..)
  exact ((((voicesThrough s 15).trans (mixFrame _)).trans (share (hostGapFrame _) _)).trans (share (trigGapFrame _) _)).trans (ended _)

/-- A command of log 3 that takes a share of the coming frame ahead, or has no effect. -/
theorem ahead (h : Updates s t) (b : Bool) (p : Progress) : Updates s (if b = true then { t with progress := p } else s) :=
  (h.trans (output t t.out p)).ite b

theorem laneAhead (s : State) (l : Fin 4) (b : Bool) : Updates s (if b = true then s.laneAhead l else s) :=
  ahead ((countShare s).trans (lanesThrough ..)) b _

theorem muteAhead (s : State) : Updates s s.muteAhead := (output s _ _).ite _

/-! ### Signals, autostart entries and resets (R84, R95, R169, R171) -/

theorem nextSignal (s : State) : Updates s s.nextSignal := by
  unfold State.nextSignal
  split
  · exact refl s
  · exact (queues s _ s.autostartDue s.pending).trans (moves (.takeSignal ..))

theorem nextAutostart (s : State) : Updates s s.nextAutostart := by
  unfold State.nextAutostart
  split
  · exact refl s
  · next rest _ =>
    have taken : Updates s { s with autostartDue := rest } := queues s s.signals rest s.pending
    dsimp only
    split
    · exact taken.trans (moves (.startLane ..))
    · exact taken

theorem replyEnds (s : State) : Updates s s.replyEnds := by
  unfold State.replyEnds
  split
  · exact link ..
  · exact link ..
  · exact (link ..).trans (coldReset _)

theorem assertNrst (s : State) : Updates s s.assertNrst := by
  unfold State.assertNrst
  split
  · exact refl s
  · split
    · exact (pin s true).trans (coldReset _)
    · exact pin s true

end Updates

/-- What a command makes of the state is a series of updates. -/
theorem exec_updates {c : Instr} {s t : State} (h : exec c s = .next t) : Updates s t := by
  cases hc : requestHead c with
  | some p =>
    obtain ⟨f, owner, he⟩ := exec_of_host (tag := p.1) (type := p.2) hc
    cases (he s).symm.trans h
    exact .request owner ..
  | none =>
    cases c with
    | hostFrameComplete => cases h; exact .hostByte ..
    | hostGapTimeout => cases h; exact (Updates.hostGapFrame s).ahead _ _
    | replySent => cases h; exact (Updates.replyEnds s).ite _
    | nrstAssert => cases h; exact .assertNrst s
    | nrstRelease => cases h; exact .pin s false
    | powerUp => cases h; exact .powerOn s
    | setupLoad => cases h; exact .load s
    | autostartEntry => cases h; exact .nextAutostart s
    | triggerFrameComplete => cases h; exact .trigByte ..
    | trigGapTimeout => cases h; exact (Updates.trigGapFrame s).ahead _ _
    | frame => cases h; exact (Updates.frame s).ite _
    | cutComplete v => cases h; exact (Updates.voicesThrough s v.val).ahead _ _
    | rampMoveInstant v => cases h; exact (Updates.voicesThrough s v.val).ahead _ _
    | muteRampEnd => cases h; exact .muteAhead s
    | msTick => cases h; exact (Updates.tickRest s).ahead _ _
    | waitTimeExpiry => cases h; exact .laneAhead ..
    | heldNoticeExpiry => cases h; exact .laneAhead ..
    | holdoffExpiry => cases h; exact ((Updates.countShare s).trans (.tickHoldoffs _)).ahead _ _
    | stepTimeout => cases h; exact ((Updates.countShare s).trans (.tickStore _)).ahead _ _
    | storeStepDone => cases h; exact .stepDone s
    | handleNotLive => cases h; exact .nextSignal s
    | retryRound => cases h; exact .moves (.retryRound s)
    | hostByteReceived => cases h; exact .hostLine ..
    | triggerByteReceived => cases h; exact .trigLine ..
    | powerLoss => cases h; exact .powerOff s
    | _ => cases hc

/-- What a step makes of the state is a series of updates. -/
theorem step_updates {s t : State} (h : step s = .next t) : Updates s t := by
  rcases step_cases h with rfl | ⟨c, rest, h⟩
  · exact .moves (.goOn s)
  · exact (Updates.queues s s.signals s.autostartDue rest).trans (exec_updates h)

end Sys2Proof.Machine
end

section
/-! PROOFS. Every step keeps the canonical form of the store's bytes, and the busy mark on the sector of the step in progress and nowhere
else (R118, R128, R129, R130, R136, R184, R185). -/

namespace Sys2Proof.Machine

/-! ### The law of the busy mark (R118, R128) -/

section

variable {s t : State} {r : OpRecord}

theorem State.busyLaw_iff : s.busyLaw ↔ ∀ i : Fin 128,
    ((s.sectors.get i).busy = true ↔ s.op.map OpRecord.sector = some i)
      ∧ ((s.sectors.get i).busy = true → (s.sectors.get i).openMark = true) := by
  simp only [State.busyLaw, Option.map_eq_some_iff]

/-- A sector's marks are as they were: its use count and its state may differ. -/
def Sector.SameMarks (x y : Sector) : Prop := y.busy = x.busy ∧ y.openMark = x.openMark

/-- The law reads the sector of the step and the marks alone. -/
theorem State.busyLaw_of_marks (op : t.op.map OpRecord.sector = s.op.map OpRecord.sector)
    (marks : ∀ i, (s.sectors.get i).SameMarks (t.sectors.get i)) (law : s.busyLaw) : t.busyLaw := by
  rw [State.busyLaw_iff] at law ⊢
  intro i
  rw [(marks i).1, (marks i).2, op]
  exact law i

/-- No sector is busy. -/
def State.NoneBusy (s : State) : Prop := ∀ i : Fin 128, (s.sectors.get i).busy = false

theorem State.NoneBusy.busyLaw (idle : s.NoneBusy) (op : s.op = none) : s.busyLaw := by
  rw [State.busyLaw_iff]
  intro i
  rw [idle i, op]
  simp

theorem State.busyLaw.noneBusy (law : s.busyLaw) (op : s.op = none) : s.NoneBusy := by
  intro i
  have marked := (State.busyLaw_iff.1 law i).1
  rw [op] at marked
  simpa using marked

/-- A step that begins with no sector busy has the only busy sector, with its open mark (R118, R128). -/
theorem State.NoneBusy.beginStep (idle : s.NoneBusy) (r : OpRecord) : (s.beginStep r).busyLaw := by
  rw [State.busyLaw_iff]
  intro i
  rw [State.sectors_beginStep, State.op_beginStep, Table.get_set, Option.map_some, Option.some_inj]
  split
  · next same => simp [same, Sector.begun]
  · next other => simp [other, idle i]

/-- The end of the step in progress leaves no sector busy (R128). -/
theorem State.busyLaw.noneBusy_ended (law : s.busyLaw) (op : s.op = some r) (erase : Bool) (result : StoreResult) :
    (s.setSector r.sector ((s.sectors.get r.sector).ended erase result)).NoneBusy := by
  intro i
  rw [State.sectors_setSector, Table.get_set]
  split
  · rfl
  · next other =>
    have marked := (State.busyLaw_iff.1 law i).1
    rw [op] at marked
    simpa [other] using marked

/-- The end of a step: no step follows, or the next of a commit begins (R128, R136, R185). -/
theorem State.busyLaw.endStep (law : s.busyLaw) (op : s.op = some r) (result : StoreResult) : (s.endStep r result).busyLaw := by
  have idle := law.noneBusy_ended op r.page.isNone result
  unfold State.endStep
  dsimp only
  split
  · exact NoneBusy.busyLaw (s := { s.setSector r.sector _ with op := none, coldWait := false }) idle rfl
  · split
    · exact idle.beginStep _
    · have ended := NoneBusy.busyLaw (s := { s.setSector r.sector _ with op := none }) idle rfl
      unfold State.postStoreDone
      exact State.busyLaw_of_marks (by simp) (fun i => ⟨by simp, by simp⟩) ended

end

/-! ### What goes over -/

/-- The canonical form of the store's bytes and the law of the busy mark go over from one state to another. -/
structure KeepsStore (s t : State) : Prop where
  bytes : Memory.wf s.mem = true → Memory.wf t.mem = true
  busy : s.busyLaw → t.busyLaw

namespace KeepsStore

variable {s t u : State}

theorem trans (h : KeepsStore s t) (k : KeepsStore t u) : KeepsStore s u := ⟨k.bytes ∘ h.bytes, k.busy ∘ h.busy⟩

/-- An update that leaves the store's bytes, the sector of the step and the marks as they were. -/
theorem marks (mem : t.mem = s.mem) (op : t.op.map OpRecord.sector = s.op.map OpRecord.sector)
    (same : ∀ i, (s.sectors.get i).SameMarks (t.sectors.get i)) : KeepsStore s t :=
  ⟨fun h => by rw [mem]; exact h, State.busyLaw_of_marks op same⟩

/-- An update beside the store. -/
theorem beside (mem : t.mem = s.mem) (op : t.op = s.op) (sectors : t.sectors = s.sectors) : KeepsStore s t :=
  marks mem (congrArg _ op) fun i => by rw [sectors]; exact ⟨rfl, rfl⟩

theorem refl (s : State) : KeepsStore s s := beside rfl rfl rfl

/-- Voices, allocator and lanes reach the store by the use counts alone (R50, R120). -/
theorem of_moves (h : Moves s t) : KeepsStore s t :=
  marks h.untouched.mem (congrArg _ h.untouched.op) fun i => by rw [h.untouched.sectors i]; exact ⟨rfl, rfl⟩

/-- A new state of the store, with no step in progress and no sector busy (R119, R136, POWER_LOSS). -/
theorem stopped (bytes : Memory.wf s.mem = true → Memory.wf t.mem = true) (op : t.op = none) (idle : t.NoneBusy) : KeepsStore s t :=
  ⟨bytes, fun _ => idle.busyLaw op⟩

/-! ### Store steps (R128 to R132, R184, R185) -/

/-- A step begins where none is in progress. -/
theorem beginStep (op : s.op = none) (r : OpRecord) : KeepsStore s (s.beginStep r) :=
  ⟨id, fun law => (law.noneBusy op).beginStep r⟩

theorem mem_endStep (s : State) (r : OpRecord) (result : StoreResult) : (s.endStep r result).mem = s.mem := by
  unfold State.endStep
  dsimp only
  split
  · rfl
  · split
    · rfl
    · exact State.mem_post ..

/-- The step in progress ends, with the bytes it leaves. -/
theorem stepEnds {r : OpRecord} {m : Memory} (op : s.op = some r) (bytes : Memory.wf s.mem = true → m.wf = true) (damage : Nat)
    (result : StoreResult) : KeepsStore s (({ s with mem := m, damage := damage }).endStep r result) := by
  have left : KeepsStore s { s with mem := m, damage := damage } := ⟨bytes, id⟩
  exact ⟨fun h => by rw [mem_endStep]; exact bytes h, fun law => (left.busy law).endStep op result⟩

theorem stepDone (s : State) : KeepsStore s s.stepDone := by
  unfold State.stepDone
  split
  · exact refl s
  · next r op => exact stepEnds op r.wf_finished s.damage _

theorem tickStore (s : State) : KeepsStore s s.tickStore := by
  unfold State.tickStore
  split
  · exact refl s
  · next r op =>
    split
    · unfold State.stepTimesOut
      split
      · exact refl s
      · next q op => exact stepEnds op (q.wf_damaged s.damage) (s.damage + 1) _
    · exact marks rfl (by rw [op]; rfl) fun i => ⟨rfl, rfl⟩

/-- STORE ERASE and STORE PROGRAM begin a step only where none is in progress (R129, R130). -/
theorem beginOn (s : State) (i : Fin 128) (r : OpRecord) : KeepsStore s (s.beginOn i r).2 := by
  unfold State.beginOn
  split
  · exact refl s
  next op =>
  split
  · exact refl s
  split
  · exact refl s
  · exact beginStep (by simpa using op) r

/-! ### The owners of the requests (R164, R166, R174) -/

/-- An answer beside the state. -/
theorem answered {α : Type} (h : KeepsStore s t) (a : α) : KeepsStore s (a, t).2 := h

theorem onLane (lane : Byte) {f : Fin 4 → Taking} (keeps : ∀ l, KeepsStore s (f l s).2) : KeepsStore s (onLane lane f s).2 := by
  unfold Machine.onLane
  split
  · exact refl s
  · exact keeps _

theorem onVoice (voice g : Byte) {f : State → Handle → Status × State} (moves : ∀ h, Moves s (f s h).2) :
    KeepsStore s (onVoice voice g f s).2 := by
  unfold Machine.onVoice
  split
  · exact refl s
  · exact of_moves (moves _)

theorem doCueWrite (s : State) (slot : Byte) (block : List Byte) : KeepsStore s (doCueWrite slot block s).2 := by
  unfold Machine.doCueWrite
  split
  · exact refl s
  split
  · exact refl s
  next b _ =>
  unfold State.writeCue
  split
  · exact refl s
  split
  · exact refl s
  · have filled : KeepsStore s (s.setCue slot.toFin (some b)) := beside rfl rfl rfl
    exact (filled.trans (of_moves (.wakeStarved ..))).answered _

theorem doLaneStart (s : State) (lane slot clear : Byte) : KeepsStore s (doLaneStart lane slot clear s).2 :=
  onLane lane fun l => by
    unfold State.laneStartAt
    split
    · exact (of_moves (.startLane ..)).answered _
    · exact (of_moves (.startLane ..)).answered _
    all_goals exact refl s

theorem doLaneAbort (s : State) (lane voices : Byte) : KeepsStore s (doLaneAbort lane voices s).2 :=
  onLane lane fun l => by
    split
    · exact refl s
    · exact (of_moves (.abortLane ..)).answered _

theorem doVoicePlay (s : State) (w : OrderWire) : KeepsStore s (doVoicePlay w s).2 := by
  unfold Machine.doVoicePlay
  split
  · exact refl s
  · next o _ =>
    have order := of_moves (.takeOrder s o .link)
    unfold State.playAnswer
    split <;> next e => rw [e] at order; exact order

theorem doVoiceRamp (s : State) (voice g : Byte) (target : Half) (rate scale mode notify : Byte) :
    KeepsStore s (doVoiceRamp voice g target rate scale mode notify s).2 := by
  unfold Machine.doVoiceRamp
  split
  · exact refl s
  · split
    · exact refl s
    · exact of_moves (.opRamp ..)

theorem doEventRead (s : State) (count : Byte) : KeepsStore s (doEventRead count s).2 := by
  have notices : KeepsStore s s.releaseNotices := of_moves (.foldl State.postNotice .postNotice ..)
  have removed (t : State) (e : Evq) : KeepsStore t { t with evq := e } := beside rfl rfl rfl
  unfold Machine.doEventRead
  split
  · exact refl s
  · exact (notices.trans (removed ..)).answered _

end KeepsStore

/-- The owner of a request keeps both laws: STORE ERASE, STORE PROGRAM and SETUP COMMIT begin a step, a warm reset takes the use counts
off, and no other owner reaches the store but by its voices' claims. -/
theorem RequestOwner.keepsStore {f : Taking} (owner : RequestOwner f) (s : State) : KeepsStore s (f s).2 := by
  cases owner with
  | storeProgram =>
    unfold doStoreProgram
    repeat' split
    case h_2.isFalse => exact .beginOn ..
    all_goals exact .refl s
  | storeErase =>
    unfold doStoreErase
    split
    · exact .refl s
    · exact .beginOn ..
  | setupCommit =>
    unfold doSetupCommit
    split
    · exact .refl s
    · next op => exact .beginStep (by simpa using op) _
  | resetWarm =>
    refine .marks rfl rfl fun i => ?_
    show (s.sectors.get i).SameMarks ((s.sectors.map Sector.unused).get i)
    rw [Table.get_map]
    exact ⟨rfl, rfl⟩
  | cueWrite => exact .doCueWrite ..
  | laneStart => exact .doLaneStart ..
  | lanePause => exact .onLane _ fun l => .of_moves (.pauseRequest s l)
  | laneResume => exact .onLane _ fun l => .of_moves (.resumeLane s l)
  | laneAbort => exact .doLaneAbort ..
  | voicePlay => exact .doVoicePlay ..
  | voiceRamp => exact .doVoiceRamp ..
  | voiceRelease => exact .onVoice _ _ (.opRelease s)
  | voiceStop => exact .onVoice _ _ (.opStop s)
  | voiceHold => exact .onVoice _ _ (.opHold s)
  | voiceContinue => exact .onVoice _ _ (.opContinue s)
  | eventRead => exact .doEventRead ..
  | laneStatus => exact .onLane _ fun _ => .refl s
  | autostartSet =>
    refine .onLane _ fun l => ?_
    split <;> exact .beside rfl rfl rfl
  | clipDefine =>
    unfold doClipDefine State.defineClip
    repeat' split
    all_goals exact .beside rfl rfl rfl
  | clipDelete =>
    unfold doClipDelete
    repeat' split
    all_goals exact .beside rfl rfl rfl
  | storeRead =>
    unfold doStoreRead
    repeat' split
    all_goals exact .refl s
  | cueClear =>
    unfold doCueClear
    repeat' split
    all_goals exact .beside rfl rfl rfl
  | filterSet =>
    unfold doFilterSet
    repeat' split
    all_goals exact .beside rfl rfl rfl
  | bindSet =>
    unfold doBindSet
    repeat' split
    all_goals exact .beside rfl rfl rfl
  | bindClear =>
    unfold doBindClear
    repeat' split
    all_goals exact .beside rfl rfl rfl
  | triggerSet =>
    unfold doTriggerSet
    repeat' split
    all_goals exact .beside rfl rfl rfl
  | outputSet =>
    unfold doOutputSet
    repeat' split
    all_goals exact .beside rfl rfl rfl
  | tallyRead => unfold doTallyRead; split <;> exact .beside rfl rfl rfl
  | linkSet => unfold doLinkSet; split <;> exact .beside rfl rfl rfl
  | clipRead => unfold doClipRead; split <;> exact .refl s
  | cueRead => unfold doCueRead; split <;> exact .refl s
  | voiceStatus => unfold doVoiceStatus; split <;> exact .refl s
  | bindRead => unfold doBindRead; split <;> exact .refl s
  | resetCold => exact .beside rfl rfl rfl
  | refused => exact .refl s
  | badField => exact .refl s
  | identify => exact .refl s
  | storeStatus => exact .refl s

namespace KeepsStore

/-! ### The resets and loading (R119, R136, R171, R182, POWER_LOSS) -/

/-- A cold reset keeps the step in progress with its marks (R136). -/
theorem coldReset (s : State) : KeepsStore s s.coldReset := by
  refine marks rfl rfl fun i => ?_
  show (s.sectors.get i).SameMarks ((s.sectors.map Sector.unused).get i)
  rw [Table.get_map]
  exact ⟨rfl, rfl⟩

theorem powerOn (s : State) : KeepsStore s s.powerOn := by
  unfold State.powerOn
  split
  · exact refl s
  · exact stopped id rfl fun i => congrArg Sector.busy (Table.get_map Sector.poweredUp s.sectors i)

theorem powerOff (s : State) : KeepsStore s s.powerOff := by
  have bytes (h : Memory.wf s.mem = true) : Memory.wf s.lossMem = true := by
    unfold State.lossMem
    split
    · exact h
    · next r _ => exact r.wf_damaged s.damage h
  unfold State.powerOff
  split
  · exact stopped bytes rfl fun i => congrArg Sector.busy (Table.get_map Sector.unpowered s.sectors i)
  · exact refl s

theorem load (s : State) : KeepsStore s s.load := by
  rcases s.load_cases with same | ⟨-, -, loaded⟩
  · rw [same]
    exact refl s
  · rw [loaded]
    exact beside (State.mem_post ..) (State.op_post ..) (State.sectors_post ..)

end KeepsStore

/-! ### Every step -/

theorem Updates.keepsStore {s t : State} (h : Updates s t) : KeepsStore s t := by
  induction h with
  | trans _ _ h k => exact h.trans k
  | moves h => exact .of_moves h
  | owner owner s => exact owner.keepsStore s
  | link | trigger | output | queues | pin => exact .beside rfl rfl rfl
  | stepDone s => exact .stepDone s
  | tickStore s => exact .tickStore s
  | coldReset s => exact .coldReset s
  | powerOn s => exact .powerOn s
  | powerOff s => exact .powerOff s
  | load s => exact .load s

/-- Settles O55: a step is a series of updates; a store step begins only where none is in progress, and its end takes the mark off before
the next one begins. -/
theorem stepKeepsTheStoreInOrder : Obligations.StepKeepsTheStoreInOrder := by
  unfold Obligations.StepKeepsTheStoreInOrder
  exact ⟨fun _ _ bytes h => (step_updates h).keepsStore.bytes bytes, fun _ _ law h => (step_updates h).keepsStore.busy law⟩

end Sys2Proof.Machine
end

section
/-! PROOFS. The end of a store step: the bytes it leaves, its sector, and what follows it, for an array that reports the step finished and
for one that runs out of time or loses its supply (R117, R119, R128 to R132, R136, R185, POWER_LOSS). -/

namespace Sys2Proof.Machine

/-! ### The bytes a step leaves (R117, R128, R131) -/

namespace OpRecord

variable {r : OpRecord} {m : Memory} {p a k : Nat}

theorem finished_erase (h : r.page = none) (m : Memory) :
    r.finished m = (m.erase (r.sector.val * Config.sectorBytes) Config.sectorBytes, .ok) := by
  unfold finished
  rw [h]

theorem finished_program (h : r.page = some p) (m : Memory) : r.finished m = (m.program p r.bytes,
    if (m.program p r.bytes).readBytes p r.bytes.length = r.bytes then .ok else .verifyFail) := by
  unfold finished
  rw [h]

theorem bytes_of_data {d : List Byte} (h : r.data = some d) : r.bytes = d := by
  unfold bytes
  rw [h]

theorem bytes_of_image {d : List Byte} (h : r.data = none) (image : r.image = some d) : r.bytes = d := by
  unfold bytes
  rw [h, image]
  rfl

/-- An array that reports the step finished reports no timeout (R128, R131). -/
theorem finished_result (r : OpRecord) (m : Memory) : (r.finished m).2 = .ok ∨ (r.finished m).2 = .verifyFail := by
  unfold finished
  split
  · exact .inl rfl
  · dsimp only
    split
    · exact .inl rfl
    · exact .inr rfl

/-- An erased sector reads 0xFF, and no other byte changes (R117, R129). -/
theorem read_finished_erase (h : r.page = none) (m : Memory) (a : Nat) : Memory.read (r.finished m).1 a
    = if r.sector.val * 4096 ≤ a ∧ a < r.sector.val * 4096 + 4096 then 0xFF else m.read a := by
  rw [finished_erase h]
  exact Memory.read_erase ..

section

variable (page : r.page = some p) (length : r.bytes.length = 256)
include page length

/-- Each bit of a programmed page is 0 where it was 0 or is programmed 0 (R117). -/
theorem read_finished_page (wf : m.wf = true) (h : k < 256) :
    Memory.read (r.finished m).1 (p + k) = m.read (p + k) &&& r.bytes.getD k 0 := by
  have inside : k < r.bytes.length := by omega
  rw [finished_program page, Memory.read_program p k _ wf inside, List.getD_eq_getElem _ _ inside]

/-- A program changes no byte outside its page. -/
theorem read_finished_outside (m : Memory) (h : ¬(p ≤ a ∧ a < p + 256)) : Memory.read (r.finished m).1 a = m.read a := by
  rw [finished_program page]
  exact Memory.read_program_outside _ _ _ _ (by omega)

/-- A page is verified by its bytes (R131). -/
theorem finished_ok_iff (m : Memory) :
    (r.finished m).2 = .ok ↔ ∀ k, k < 256 → Memory.read (r.finished m).1 (p + k) = r.bytes.getD k 0 := by
  have verified : (r.finished m).2 = .ok ↔ (m.program p r.bytes).readBytes p r.bytes.length = r.bytes := by
    rw [finished_program page]
    dsimp only
    split
    · next same => simpa using same
    · next differs => simpa using differs
  rw [verified, finished_program page]
  constructor
  · intro same k h
    have inside : k < ((m.program p r.bytes).readBytes p r.bytes.length).length := by rw [Memory.length_readBytes]; omega
    rw [List.getD_eq_getElem _ _ (by omega), ← Memory.getElem_readBytes _ _ _ k inside]
    exact List.getElem_of_eq same _
  · intro same
    refine List.ext_getElem (Memory.length_readBytes ..) fun k _ inside => ?_
    rw [Memory.getElem_readBytes, same k (by omega), List.getD_eq_getElem]

/-- The verification of a page, by what stood there and what was to be programmed. -/
theorem finished_ok_iff_and (wf : m.wf = true) :
    (r.finished m).2 = .ok ↔ ∀ k, k < 256 → m.read (p + k) &&& r.bytes.getD k 0 = r.bytes.getD k 0 := by
  rw [finished_ok_iff page length]
  exact forall₂_congr fun k h => by rw [read_finished_page page length wf h]

end

/-- A step that stopped short changes no byte outside the page of a program, or the sector of an erase (R128, log 8). -/
theorem read_damaged (m : Memory) (damage : Nat) (program : ∀ p, r.page = some p → ¬(p ≤ a ∧ a < p + 256))
    (erase : r.page = none → ¬(r.sector.val * 4096 ≤ a ∧ a < r.sector.val * 4096 + 4096)) :
    Memory.read (r.damaged m damage) a = m.read a := by
  unfold damaged
  split
  · next page =>
    have outside := erase page
    refine Memory.read_writeBytes_outside _ _ _ _ ?_
    rw [length_damagedBytes]
    simp only [Config.sectorBytes]
    omega
  · next p page =>
    have outside := program p page
    refine Memory.read_writeBytes_outside _ _ _ _ ?_
    rw [length_damagedBytes]
    simp only [Config.pageBytes]
    omega

/-! ### The step that follows (R185) -/

theorem nextCommitStep_of_ne {result : StoreResult} (h : r.op ≠ .commit) : r.nextCommitStep result = none := by
  unfold nextCommitStep
  split
  · next e _ => exact absurd e h
  · rfl

theorem nextCommitStep_of_failed {result : StoreResult} (h : result ≠ .ok) : r.nextCommitStep result = none := by
  unfold nextCommitStep
  split
  · exact if_neg fun both => h both.1
  · rfl

theorem nextCommitStep_commit (h : r.op = .commit) (step : r.commitStep = some k) :
    r.nextCommitStep .ok = if k < 25 then some (k + 1) else none := by
  unfold nextCommitStep
  rw [h, step]
  simp [Config.commitSteps]

end OpRecord

/-! ### The end of a step (R128, R132, R136) -/

section

variable {s : State} {r : OpRecord} {result : StoreResult}

/-- The sector table with the step's sector as its end leaves it (R118, R119, R128). -/
def State.sectorsEnded (s : State) (r : OpRecord) (result : StoreResult) : Table Sector 128 :=
  s.sectors.set r.sector ((s.sectors.get r.sector).ended r.page.isNone result)

/-- A cold reset that waited for the step is over, with no record (R136). -/
theorem State.endStep_waited (wait : s.coldWait = true) : s.endStep r result
    = { s with op := none, coldWait := false, sectors := s.sectorsEnded r result } := by
  unfold State.endStep
  rw [if_pos (by exact wait)]
  rfl

/-- The operation ends with its record (R132, R185). -/
theorem State.endStep_done (wait : s.coldWait = false) (last : r.nextCommitStep result = none) : s.endStep r result
    = State.post { s with op := none, sectors := s.sectorsEnded r result } .storeDone r.sector.val 0 result.code
        (eventValue r.op.code (BitVec.ofNat 8 (r.address / 65536)) (BitVec.ofNat 8 (r.address / 256)) (BitVec.ofNat 8 r.address)) := by
  unfold State.endStep
  rw [if_neg (by simp [wait]), last]
  rfl

/-- The next step of a commit begins (R185). -/
theorem State.endStep_follows {k : Nat} (wait : s.coldWait = false) (next : r.nextCommitStep result = some k) :
    s.endStep r result = State.beginStep { s with sectors := s.sectorsEnded r result } (s.commitRecord k) := by
  unfold State.endStep
  rw [if_neg (by simp [wait]), next]
  rfl

theorem exec_storeStepDone (op : s.op = some r) :
    exec .storeStepDone s = .next (State.endStep { s with mem := (r.finished s.mem).1 } r (r.finished s.mem).2) := by
  show Host.Outcome.next s.stepDone = _
  unfold State.stepDone
  rw [op]

/-- The array reports the last step of an operation finished (R128, R132). -/
theorem exec_storeStepDone_done (op : s.op = some r) (wait : s.coldWait = false) (finished : (r.finished s.mem).2 = result)
    (last : r.nextCommitStep result = none) : exec .storeStepDone s
    = .next (State.post { s with op := none, mem := (r.finished s.mem).1, sectors := s.sectorsEnded r result } .storeDone r.sector.val 0
        result.code (eventValue r.op.code (BitVec.ofNat 8 (r.address / 65536)) (BitVec.ofNat 8 (r.address / 256))
          (BitVec.ofNat 8 r.address))) := by
  rw [exec_storeStepDone op, finished, State.endStep_done (by exact wait) last]
  rfl

theorem OpRecord.address_erase (h : r.page = none) : r.address = r.sector.val * 4096 := by
  unfold address
  rw [h]
  rfl

theorem OpRecord.address_program {p : Nat} (h : r.page = some p) : r.address = p := by
  unfold address
  rw [h]

end

/-- Settles O20: the erased bytes, and the sector as the end of the step leaves it; a cold reset's wait ends with no record. -/
theorem stepOfAnEraseEnds : Obligations.StepOfAnEraseEnds := by
  unfold Obligations.StepOfAnEraseEnds
  refine ⟨fun r s op erase page wait => ?_, fun r s op wait => ?_⟩
  · have done := exec_storeStepDone_done op wait (congrArg Prod.snd (OpRecord.finished_erase page s.mem))
      (OpRecord.nextCommitStep_of_ne (by simp [erase]))
    refine ⟨_, done, fun a => ?_, ?_⟩
    · rw [State.mem_post]
      exact OpRecord.read_finished_erase page s.mem a
    · rw [State.mem_post, OpRecord.address_erase page, erase]
      unfold State.sectorsEnded
      rw [page]
      rfl
  · rw [exec_storeStepDone op, State.endStep_waited (by exact wait)]
    unfold State.sectorsEnded Sector.ended
    rcases OpRecord.finished_result r s.mem with ok | failed
    · rw [ok]
      rfl
    · rw [failed]
      rfl

/-- Settles O21: the page read back decides between OK and VERIFY_FAIL. -/
theorem programEndsWithVerification : Obligations.ProgramEndsWithVerification := by
  unfold Obligations.ProgramEndsWithVerification
  intro r p d s op program page data length wait wf equal
  obtain rfl := OpRecord.bytes_of_data data
  have verified : (r.finished s.mem).2 = .ok ↔ equal := OpRecord.finished_ok_iff_and page length wf
  have done {result : StoreResult} (h : (r.finished s.mem).2 = result) :=
    exec_storeStepDone_done op wait h (OpRecord.nextCommitStep_of_ne (by simp [program]))
  rw [OpRecord.address_program page, program] at done
  unfold State.sectorsEnded at done
  rw [page] at done
  refine ⟨_, done rfl, fun k h => ?_, fun a h => ?_, fun ok => ?_, fun failed => ?_⟩
  · rw [State.mem_post]
    exact OpRecord.read_finished_page page length wf h
  · rw [State.mem_post]
    exact OpRecord.read_finished_outside page length s.mem h
  · rw [State.mem_post, verified.2 ok]
    rfl
  · rw [State.mem_post, (r.finished_result s.mem).resolve_left (mt verified.1 failed)]
    rfl

/-! ### A step that runs out of time (R128, R131, R136) -/

section

variable {s : State} {r : OpRecord}

/-- The operation has ended by a timeout of its step: free bytes, and a SUSPECT sector (R119, R128, log 8). -/
def State.timedOut (s : State) (r : OpRecord) : State :=
  { s with op := none, coldWait := false, mem := r.damaged s.mem s.damage, damage := s.damage + 1, sectors := s.sectorsEnded r .timeout }

theorem State.tickStore_ends (op : s.op = some r) (last : r.limitLeft ≤ 1) : s.tickStore
    = State.endStep { s with mem := r.damaged s.mem s.damage, damage := s.damage + 1 } r .timeout := by
  unfold State.tickStore State.stepTimesOut
  rw [op]
  exact if_pos last

/-- The tick that ends the step in progress (R128, R132). -/
theorem State.tickStore_done (op : s.op = some r) (last : r.limitLeft ≤ 1) (wait : s.coldWait = false) : s.tickStore
    = (s.timedOut r).post .storeDone r.sector.val 0 1 (eventValue r.op.code (BitVec.ofNat 8 (r.address / 65536))
        (BitVec.ofNat 8 (r.address / 256)) (BitVec.ofNat 8 r.address)) := by
  have none := OpRecord.nextCommitStep_of_failed (r := r) (result := .timeout) (by decide)
  unfold State.timedOut
  rw [State.tickStore_ends op last, State.endStep_done (by exact wait) none, ← wait]
  rfl

/-- The tick that ends the step a cold reset waits for (R128, R136). -/
theorem State.tickStore_waited (op : s.op = some r) (last : r.limitLeft ≤ 1) (wait : s.coldWait = true) :
    s.tickStore = s.timedOut r := by
  rw [State.tickStore_ends op last, State.endStep_waited (by exact wait)]
  rfl

/-- STEP_TIMEOUT where the coming frame is a tick that STO has not taken (log 3). -/
theorem State.stepAhead_eq (power : s.power = true) (tick : s.out.frameSub = 31) (store : s.progress.store = false) :
    s.stepAhead = if s.stepEndsNext = true then
      { s.countShare.tickStore with progress := { s.progress with count := true, store := true } } else s := by
  unfold State.stepAhead
  rw [power, State.tickComes_of_sub (by rw [tick]), store]
  rfl

theorem State.stepEndsNext_iff (op : s.op = some r) : s.stepEndsNext = true ↔ r.limitLeft ≤ 1 := by
  unfold State.stepEndsNext
  rw [op]
  exact decide_eq_true_iff

end

/-- Settles O22: the tick taken ahead ends the step with a timeout, or finds none to end. -/
theorem stepRunsOutOfTime : Obligations.StepRunsOutOfTime := by
  unfold Obligations.StepRunsOutOfTime
  intro s power tick store count
  have ahead := State.stepAhead_eq power tick store
  refine ⟨fun r op last => ?_, fun op => ?_, fun r op more => ?_⟩
  · rw [if_pos ((State.stepEndsNext_iff op).2 last)] at ahead
    have counted := State.countShare_eq count
    generalize s.countShare = u at ahead counted
    have bytes : u.tickStore.mem = r.damaged s.mem s.damage := by
      rw [State.tickStore_ends (by rw [counted]; exact op) last, KeepsStore.mem_endStep, counted]
    refine ⟨_, congrArg Host.Outcome.next ahead, fun a program erase => ?_, fun wait => ?_, fun wait => ?_⟩
    · rw [bytes]
      exact OpRecord.read_damaged s.mem s.damage program erase
    · rw [bytes, State.tickStore_done (by rw [counted]; exact op) last (by rw [counted]; exact wait), counted]
      rfl
    · rw [bytes, State.tickStore_waited (by rw [counted]; exact op) last (by rw [counted]; exact wait), counted]
      rfl
  · rw [if_neg (by simp [State.stepEndsNext, op])] at ahead
    exact congrArg Host.Outcome.next ahead
  · rw [if_neg (mt (State.stepEndsNext_iff op).1 (by omega))] at ahead
    exact congrArg Host.Outcome.next ahead

end Sys2Proof.Machine
end

section
/-! PROOFS. Loss and return of the supply: what the store and the state area keep, and what a part comes up with (R118, R119, R128, R136,
R186, POWER_LOSS). -/

namespace Sys2Proof.Machine

section

variable {s : State}

/-- The part without supply: the store as the loss leaves it, the state area, and nothing of the working state (log 16). -/
theorem State.powerOff_on (h : s.power = true) : s.powerOff =
    { State.reset with
      sectors := s.sectors.map Sector.unpowered, mem := s.lossMem, loadDue := false, nrst := s.nrst, power := false
      damage := if s.op.isSome then s.damage + 1 else s.damage, openings := s.openings, pending := s.pending } := if_pos h

/-- The part right after its supply has returned (R119, R136). -/
theorem State.powerOn_off (h : s.power = false) : s.powerOn =
    { State.reset with
      sectors := s.sectors.map Sector.poweredUp, mem := s.mem, nrst := s.nrst, damage := s.damage, openings := s.openings
      pending := s.pending } := if_neg (ne_true_of_eq_false h)

theorem State.lossMem_idle (h : s.op = none) : s.lossMem = s.mem := by
  unfold State.lossMem
  rw [h]

theorem State.lossMem_step {r : OpRecord} (h : s.op = some r) : s.lossMem = r.damaged s.mem s.damage := by
  unfold State.lossMem
  rw [h]

end

/-- Settles O13: a step in progress leaves its bytes as one that runs out of time does; the state area is gone through twice, and the open
mark that the loss leaves makes the sector SUSPECT at the return. -/
theorem supplyLostAndReturned : Obligations.SupplyLostAndReturned := by
  unfold Obligations.SupplyLostAndReturned
  refine fun s => ⟨fun on => ?_, fun off => congrArg Host.Outcome.next (State.powerOn_off off),
    fun on => congrArg Host.Outcome.next (if_pos on)⟩
  refine ⟨_, congrArg Host.Outcome.next (State.powerOff_on on), rfl, rfl, rfl, fun i => Table.get_map Sector.unpowered s.sectors i,
    State.lossMem_idle, fun r op page a outside => ?_, fun r p op page a outside => ?_⟩
  · show Memory.read s.lossMem a = _
    rw [State.lossMem_step op]
    exact OpRecord.read_damaged s.mem s.damage (fun p paged => by simp [page] at paged) fun _ => outside
  · show Memory.read s.lossMem a = _
    rw [State.lossMem_step op]
    refine OpRecord.read_damaged s.mem s.damage (fun q paged => ?_) fun unpaged => by simp [page] at unpaged
    rwa [← Option.some.inj (page.symm.trans paged)]

end Sys2Proof.Machine
end

section
/-! PROOFS. SETUP COMMIT step by step: the content of the setup area in the words of R180, its pages, and the steps of R184 with what
follows each (R117, R131, R180, R184, R185). -/

namespace Sys2Proof.Machine

/-! ### The sections (R180) -/

/-- A two-byte number's bytes (R172). -/
theorem be16_toNat (h : Half) : be16 h.toNat = halfBytes h := by
  have lowest : byte1 h.toNat = h.extractLsb' 0 8 := by
    rw [← byte1_div h 0, pow_zero, Nat.div_one]
  exact congrArg₂ List.cons (byte1_div h 8) (congrArg (· :: []) lowest)

/-- A section's entry: its length and its CRC, most significant byte first. -/
theorem tableEntry_eq (b : List Byte) : tableEntry b = be16 b.length ++ halfBytes (crc16 b) := by
  unfold tableEntry
  rw [be16_toNat]

theorem State.bindingsBytes_eq (s : State) : s.bindingsBytes = s.trg.bindings.cells.flatMap fun b =>
    [if b.enabled then 1 else 0] ++ codeBytes b.code
      ++ [BitVec.ofNat 8 b.lane.val, BitVec.ofNat 8 b.entry.val, if b.clear then 1 else 0, b.policy.code, BitVec.ofNat 8 b.holdoff] := by
  unfold State.bindingsBytes
  rw [funext bindingBytes_eq]

theorem State.filterBytes_eq (s : State) :
    s.filterBytes = BitVec.ofNat 8 s.trg.filterList.length :: s.trg.filterList.flatMap codeBytes := by
  unfold State.filterBytes
  rw [funext be32_toNat]
  rfl

theorem State.settingsBytes_eq (s : State) : s.settingsBytes = [if s.out.mode = .stereo then 0 else 1] ++ be16 s.out.leftMaster
    ++ be16 s.out.rightMaster ++ [if s.out.mute = .muted ∨ s.out.mute = .muting then 1 else 0, BitVec.ofNat 8 s.out.deadZone
      , s.trg.rate.code, s.trg.report.code] := by
  unfold State.settingsBytes Out.settingsBytes
  cases s.out.mode <;> cases s.out.mute <;> rfl

/-! ### The pages (R180, R184) -/

theorem length_pageOf (image : List Byte) (p : Nat) : (pageOf image p).length = 256 := by
  unfold pageOf Config.pageBytes
  simp only [List.length_append, List.length_take, List.length_drop, List.length_replicate]
  omega

/-- A byte of a page is the image's, and 0xFF beyond the image. -/
theorem getD_pageOf (image : List Byte) (p : Nat) {j : Nat} (h : j < 256) :
    (pageOf image p).getD j 0 = image.getD (p * 256 + j) 0xFF := by
  have bound := length_pageOf image p
  have inPage : ((image.drop (p * 256)).take 256)[j]? = image[p * 256 + j]? := by
    rw [List.getElem?_take_of_lt h, List.getElem?_drop]
  rw [List.getD_eq_getElem?_getD, List.getD_eq_getElem?_getD, ← inPage]
  unfold pageOf Config.pageBytes
  dsimp only
  by_cases inside : j < ((image.drop (p * 256)).take 256).length
  · rw [List.getElem?_append_left inside, List.getElem?_eq_getElem inside]
    rfl
  · rw [List.getElem?_append_right (by omega), List.getElem?_eq_none (by omega : _ ≤ j), List.getElem?_replicate, if_pos (by omega)]
    rfl

/-! ### The steps (R184) -/

section

variable {s : State} {k : Nat}

/-- Steps 2 to 17 program the cue image, page by page, into sector 1. -/
theorem State.commitRecord_cues (least : 1 ≤ k) (h : k < 17) : s.commitRecord (k + 1)
    = { op := .commit, sector := 1, page := some (4096 + (k - 1) * 256), limitLeft := 5, commitStep := some (k + 1), data := none
        image := some (pageOf s.cueImage (k - 1)) } := by
  have work : s.commitWork (k + 1) = (1, some (4096 + (k - 1) * 256, pageOf s.cueImage (k - 1))) := by
    unfold State.commitWork
    rw [if_neg (by omega), if_pos (by omega)]
    rfl
  unfold State.commitRecord
  rw [work]
  rfl

/-- Step 18 erases sector 0. -/
theorem State.commitRecord_erase : s.commitRecord 18
    = { op := .commit, sector := 0, page := none, limitLeft := 50, commitStep := some 18, data := none, image := none } := rfl

/-- Steps 19 to 25 program the section table and five sections, page by page, into sector 0. -/
theorem State.commitRecord_sectorZero (h : 17 < k) : s.commitRecord (k + 1)
    = { op := .commit, sector := 0, page := some ((k - 18) * 256), limitLeft := 5, commitStep := some (k + 1), data := none
        image := some (pageOf s.sectorZeroImage (k - 18)) } := by
  have work : s.commitWork (k + 1) = (0, some ((k - 18) * 256, pageOf s.sectorZeroImage (k - 18))) := by
    unfold State.commitWork
    rw [if_neg (by omega), if_neg (by omega), if_neg (by omega)]
    rfl
  unfold State.commitRecord
  rw [work]
  rfl

/-- The record of the step behind step `k` (R184). -/
theorem State.commitRecord_succ (least : 1 ≤ k) : s.commitRecord (k + 1)
    = { op := .commit, sector := if k < 17 then 1 else 0
        page := if k < 17 then some (4096 + (k - 1) * 256) else if k = 17 then none else some ((k - 18) * 256)
        limitLeft := if k = 17 then 50 else 5, commitStep := some (k + 1), data := none
        image := if k < 17 then some (pageOf s.cueImage (k - 1)) else if k = 17 then none
          else some (pageOf s.sectorZeroImage (k - 18)) } := by
  rcases Nat.lt_trichotomy k 17 with h | rfl | h
  · rw [State.commitRecord_cues least h]
    simp only [if_pos h, if_neg h.ne]
  · exact State.commitRecord_erase
  · rw [State.commitRecord_sectorZero h]
    simp only [if_neg h.not_gt, if_neg h.ne']

/-- A step of a commit that ends OK, not the last, begins the next one at once (R185). -/
theorem exec_storeStepDone_follows {r : OpRecord} (op : s.op = some r) (commit : r.op = .commit) (step : r.commitStep = some k)
    (wait : s.coldWait = false) (ok : (r.finished s.mem).2 = .ok) (more : k < 25) : exec .storeStepDone s
    = .next (State.beginStep { s with mem := (r.finished s.mem).1, sectors := s.sectorsEnded r .ok } (s.commitRecord (k + 1))) := by
  have next := (OpRecord.nextCommitStep_commit commit step).trans (if_pos more)
  rw [exec_storeStepDone op, ok, State.endStep_follows (by exact wait) next]
  rfl

end

/-- Settles O23: the record of each step that follows, the end behind step 25, and the end behind a failed verification. -/
theorem commitStepsFollow : Obligations.CommitStepsFollow := by
  unfold Obligations.CommitStepsFollow
  intro r k s op commit step wait m directory cues bindings filter settings autostart entry sectorZero holds
  have done {result : StoreResult} := exec_storeStepDone_done (result := result) op wait
  have image : sectorZero = s.sectorZeroImage := by
    have clips : directory = s.directoryBytes := by
      refine congrArg (fun f => s.clips.cells.flatMap f) (funext fun c => ?_)
      rcases c with ⟨_ | ⟨_, _, _, _, loop, _, release⟩, _⟩
      · rfl
      · cases loop <;> cases release <;> rfl
    have lanes : autostart = s.autostartSection :=
      congrArg (fun f => s.autostart.cells.flatMap f) (funext fun a => by cases a <;> rfl)
    have listed : entry = tableEntry := funext fun b => (tableEntry_eq b).symm
    unfold State.sectorZeroImage
    rw [State.bindingsBytes_eq, State.filterBytes_eq, State.settingsBytes_eq, ← clips, ← lanes, ← listed]
    rfl
  have page (image : List Byte) (p : Nat) : holds (pageOf image p) image p :=
    ⟨length_pageOf image p, fun j h => getD_pageOf image p h⟩
  refine ⟨fun ok least more => ?_, fun ok last zero paged => ?_, fun failed => ?_, fun erase => ?_,
    fun p d paged data bytes length wf => ?_⟩
  · have follows := exec_storeStepDone_follows op commit step wait ok more
    rw [State.commitRecord_succ least, ← image] at follows
    refine ⟨_, _, follows, rfl, rfl, rfl, rfl, rfl, rfl, rfl, rfl, rfl, fun h => ⟨_, if_pos h, page ..⟩, fun h => ?_, fun h => ?_,
      ?_, ?_⟩
    · exact (if_neg h.not_lt).trans (if_pos h)
    · exact ⟨_, (if_neg h.not_gt).trans (if_neg h.ne'), page ..⟩
    all_goals rw [State.sectors_beginStep, Table.get_set_self]; rfl
  · have ended := done ok ((OpRecord.nextCommitStep_commit commit step).trans (if_neg last.not_lt))
    rw [OpRecord.address_program paged, commit, zero] at ended
    refine ⟨_, ended, State.op_post .., State.mem_post .., State.evq_post_congr (s := s) (by rfl) (by rfl) .., ?_, ?_⟩
    all_goals
      unfold State.sectorsEnded
      rw [State.sectors_post, zero, Table.get_set_self]
      rfl
  · have ended := done failed (OpRecord.nextCommitStep_of_failed (by decide))
    rw [commit] at ended
    exact ⟨_, ended, State.op_post .., State.mem_post .., State.sectors_post .., State.evq_post_congr (s := s) (by rfl) (by rfl) ..⟩
  · exact ⟨congrArg Prod.snd (OpRecord.finished_erase erase s.mem), OpRecord.read_finished_erase erase s.mem⟩
  · obtain rfl := OpRecord.bytes_of_image data bytes
    have verified := OpRecord.finished_ok_iff paged length s.mem
    refine ⟨fun j h => OpRecord.read_finished_page paged length wf h, fun a h => OpRecord.read_finished_outside paged length s.mem h,
      verified.2, fun ⟨j, h, differs⟩ => (r.finished_result s.mem).resolve_left fun ok => differs (verified.1 ok j h)⟩

end Sys2Proof.Machine
end

section
/-! PROOFS. The clip directory: the field checks of a clip record, and CLIP DEFINE, CLIP DELETE and CLIP READ (R121 to R126, R172, R174,
R175). -/

namespace Sys2Proof.Machine

/-! ### Codes in range (R5, R121) -/

theorem Format.ofCode_code (f : Format) : Format.ofCode f.code = some f := by cases f <;> rfl

theorem LoopMode.ofCode_code (m : LoopMode) : LoopMode.ofCode m.code = some m := by cases m <;> rfl

theorem Format.ofCode_of_gt {b : Byte} (h : 2 < b.toNat) : Format.ofCode b = none := by
  unfold Format.ofCode
  split
  case h_4 => rfl
  all_goals omega

theorem LoopMode.ofCode_of_gt {b : Byte} (h : 2 < b.toNat) : LoopMode.ofCode b = Option.none := by
  unfold LoopMode.ofCode
  split
  case h_4 => rfl
  all_goals omega

/-- Every byte up to 2 is the code of a format (R121). -/
theorem Format.exists_code {b : Byte} (h : b.toNat ≤ 2) : ∃ f : Format, f.code = b := by
  have hb : b.toNat = 0 ∨ b.toNat = 1 ∨ b.toNat = 2 := by omega
  rcases hb with e | e | e
  · exact ⟨.s8, (BitVec.eq_of_toNat_eq e).symm⟩
  · exact ⟨.u8, (BitVec.eq_of_toNat_eq e).symm⟩
  · exact ⟨.s16, (BitVec.eq_of_toNat_eq e).symm⟩

/-- Every byte up to 2 is the code of a loop mode (R121). -/
theorem LoopMode.exists_code {b : Byte} (h : b.toNat ≤ 2) : ∃ m : LoopMode, m.code = b := by
  have hb : b.toNat = 0 ∨ b.toNat = 1 ∨ b.toNat = 2 := by omega
  rcases hb with e | e | e
  · exact ⟨.none, (BitVec.eq_of_toNat_eq e).symm⟩
  · exact ⟨.forward, (BitVec.eq_of_toNat_eq e).symm⟩
  · exact ⟨.alternate, (BitVec.eq_of_toNat_eq e).symm⟩

theorem Format.code_eq_two (f : Format) : f.code = 2 ↔ f = .s16 := by cases f <;> decide

theorem LoopMode.code_injective : Function.Injective LoopMode.code := fun a b h =>
  Option.some.inj ((LoopMode.ofCode_code a).symm.trans ((congrArg LoopMode.ofCode h).trans (LoopMode.ofCode_code b)))

theorem LoopMode.code_eq_zero (m : LoopMode) : m.code = 0 ↔ m = .none := LoopMode.code_injective.eq_iff (b := .none)

/-! ### The field checks of a clip record (R123) -/

/-- The last byte of the region that a clip record spells (R123). -/
def lastRegionByte (w : ClipWire) : Nat :=
  if w.format = 2 then w.base.toNat + 2 * w.count.toNat - 1 else w.base.toNat + w.count.toNat - 1

/-- Check 3 of R123 fails: the base lies outside the sample area, or is odd for two-byte samples. -/
abbrev BadBase (w : ClipWire) : Prop :=
  w.base.toNat < 8192 ∨ 524287 < w.base.toNat ∨ (w.format = 2 ∧ w.base.toNat % 2 = 1)

/-- Check 4 of R123 fails: fewer than two samples, or a region that reaches out of the store. -/
abbrev BadCount (w : ClipWire) : Prop := w.count.toNat < 2 ∨ 524287 < lastRegionByte w

/-- Check 7 of R123 fails: a loop that ends before it starts or outside the clip. -/
abbrev BadLoopEnd (w : ClipWire) : Prop := w.loopEnd.toNat ≤ w.loopStart.toNat ∨ w.count.toNat ≤ w.loopEnd.toNat

/-- The loop that a record spells under a loop mode (R121). -/
def loopUnder (m : LoopMode) (w : ClipWire) : Option Loop :=
  if m = .none then none else some ⟨w.loopStart.toNat, w.loopEnd.toNat⟩

section

variable {w : ClipWire} {f : Format} {m : LoopMode} {i : Nat}

theorem lastByteOf_eq (hf : f.code = w.format) : lastByteOf f w.base.toNat w.count.toNat = lastRegionByte w := by
  unfold lastRegionByte
  rw [← hf]
  cases f <;> rfl

/-! The loop fields (checks 6 and 7). -/

theorem loopOf_looping (hm : m ≠ .none) : loopOf m w.count.toNat w.loopStart.toNat w.loopEnd.toNat
    = if w.count.toNat < w.loopStart.toNat + 2 then .error 9
      else if w.loopEnd.toNat ≤ w.loopStart.toNat ∨ w.count.toNat ≤ w.loopEnd.toNat then .error 12
      else .ok (some ⟨w.loopStart.toNat, w.loopEnd.toNat⟩) := by
  cases m with
  | none => exact absurd rfl hm
  | forward => rfl
  | alternate => rfl

theorem loopOf_good (start : m ≠ .none → ¬w.count.toNat < w.loopStart.toNat + 2) (finish : m ≠ .none → ¬BadLoopEnd w) :
    loopOf m w.count.toNat w.loopStart.toNat w.loopEnd.toNat = .ok (loopUnder m w) := by
  by_cases hm : m = .none
  · rw [hm]
    rfl
  · rw [loopOf_looping hm, if_neg (start hm)]
    exact (if_neg (finish hm)).trans (by rw [loopUnder, if_neg hm])

/-! The fields before them (checks 2 to 5), and what is left of the record behind them. -/

theorem clipRecordOf_bad_format (h : 2 < w.format.toNat) : clipRecordOf w = .error 1 := by
  unfold clipRecordOf
  rw [Format.ofCode_of_gt h]

section

variable (hf : f.code = w.format)
include hf

theorem badBase_iff : (w.base.toNat < Config.sampleArea ∨ Config.storeBytes ≤ w.base.toNat ∨ (f = .s16 ∧ w.base.toNat % 2 = 1))
    ↔ BadBase w := by
  unfold BadBase
  rw [← hf, Format.code_eq_two]
  rfl

theorem badCount_iff : (w.count.toNat < 2 ∨ Config.storeBytes ≤ lastByteOf f w.base.toNat w.count.toNat) ↔ BadCount w := by
  rw [lastByteOf_eq hf]
  rfl

theorem clipRecordOf_bad_base (h : BadBase w) : clipRecordOf w = .error 2 := by
  unfold clipRecordOf
  rw [← hf, Format.ofCode_code]
  exact if_pos ((badBase_iff hf).2 h)

variable (base : ¬BadBase w)
include base

theorem clipRecordOf_bad_count (h : BadCount w) : clipRecordOf w = .error 5 := by
  unfold clipRecordOf
  rw [← hf, Format.ofCode_code]
  exact (if_neg (mt (badBase_iff hf).1 base)).trans (if_pos ((badCount_iff hf).2 h))

variable (count : ¬BadCount w)
include count

theorem clipRecordOf_bad_mode (h : 2 < w.loopMode.toNat) : clipRecordOf w = .error 8 := by
  unfold clipRecordOf
  rw [← hf, Format.ofCode_code]
  dsimp only
  rw [if_neg (mt (badBase_iff hf).1 base), if_neg (mt (badCount_iff hf).1 count), LoopMode.ofCode_of_gt h]

/-- The loop, the step and the release decide a record whose other fields are in range (checks 6 to 9). -/
theorem clipRecordOf_eq (hm : m.code = w.loopMode) : clipRecordOf w
    = (loopOf m w.count.toNat w.loopStart.toNat w.loopEnd.toNat).bind fun loop =>
      if w.step.toNat = 0 then .error 15
      else (releaseOf w.releaseRate w.releaseScale 18).map fun release =>
        { base := w.base.toNat, count := w.count.toNat, format := f, loopMode := m, loop, step := w.step.toNat, release } := by
  unfold clipRecordOf
  rw [← hf, Format.ofCode_code]
  dsimp only
  rw [if_neg (mt (badBase_iff hf).1 base), if_neg (mt (badCount_iff hf).1 count), ← hm, LoopMode.ofCode_code]
  dsimp only
  cases loopOf m w.count.toNat w.loopStart.toNat w.loopEnd.toNat
  · rfl
  · cases releaseOf w.releaseRate w.releaseScale 18 <;> rfl

end

/-- The release of a record, where its scale is in range (check 9). -/
theorem releaseOf_ok {rate scale : Byte} (h : ¬(rate ≠ 0 ∧ 3 < scale.toNat)) (offset : Nat) :
    ∃ release, releaseOf rate scale offset = .ok release ∧ (rate = 0 → release = none)
      ∧ (rate ≠ 0 → ∃ k, release = some ⟨rate.toNat, k⟩ ∧ k.code = scale) := by
  by_cases hr : rate = 0
  · exact ⟨none, releaseOf_zero hr .., fun _ => rfl, fun hn => absurd hr hn⟩
  · obtain ⟨k, rfl⟩ := Scale.exists_code (not_lt.1 (not_and.1 h hr))
    exact ⟨_, releaseOf_good hr k offset, fun h0 => absurd h0 hr, fun _ => ⟨k, rfl, rfl⟩⟩

end

/-- The index of the first field of a clip record, from its format on, that is out of its range (R123). -/
def firstBadClipField (w : ClipWire) : Option Nat :=
  if 2 < w.format.toNat then some 1
  else if BadBase w then some 2
  else if BadCount w then some 5
  else if 2 < w.loopMode.toNat then some 8
  else if w.loopMode ≠ 0 ∧ w.count.toNat < w.loopStart.toNat + 2 then some 9
  else if w.loopMode ≠ 0 ∧ BadLoopEnd w then some 12
  else if w.step = 0 then some 15
  else if w.releaseRate ≠ 0 ∧ 3 < w.releaseScale.toNat then some 18
  else none

section

variable {w : ClipWire}

/-- The first bad field is the one answered (R123). -/
theorem clipRecordOf_error {k : Nat} (h : firstBadClipField w = some k) : clipRecordOf w = .error k := by
  unfold firstBadClipField at h
  split at h
  · next bad => cases h; exact clipRecordOf_bad_format bad
  next format =>
  obtain ⟨f, hf⟩ := Format.exists_code (not_lt.1 format)
  split at h
  · next bad => cases h; exact clipRecordOf_bad_base hf bad
  next base =>
  split at h
  · next bad => cases h; exact clipRecordOf_bad_count hf base bad
  next count =>
  split at h
  · next bad => cases h; exact clipRecordOf_bad_mode hf base count bad
  next mode =>
  obtain ⟨m, hm⟩ := LoopMode.exists_code (not_lt.1 mode)
  have looping (loops : w.loopMode ≠ 0) : m ≠ .none := mt m.code_eq_zero.2 (hm ▸ loops)
  rw [clipRecordOf_eq hf base count hm]
  split at h
  · next bad =>
    cases h
    rw [loopOf_looping (looping bad.1), if_pos bad.2]
    rfl
  next start =>
  split at h
  · next bad =>
    cases h
    rw [loopOf_looping (looping bad.1), if_neg (not_and.1 start bad.1), if_pos bad.2]
    rfl
  next finish =>
  have loops (hn : m ≠ .none) : w.loopMode ≠ 0 := hm ▸ mt m.code_eq_zero.1 hn
  rw [loopOf_good (fun hn => not_and.1 start (loops hn)) fun hn => not_and.1 finish (loops hn)]
  split at h
  · next bad => cases h; exact if_pos (congrArg BitVec.toNat bad)
  next step =>
  refine (if_neg fun zero => step (BitVec.eq_of_toNat_eq zero)).trans ?_
  split at h
  · next bad =>
    cases h
    rw [releaseOf_bad_scale bad.1 bad.2]
    rfl
  · cases h

/-- With no bad field the clip record holds the fields of its bytes (R121, R123). -/
theorem clipRecordOf_ok (h : firstBadClipField w = none) :
    ∃ (f : Format) (m : LoopMode) (release : Option Release), f.code = w.format ∧ m.code = w.loopMode
      ∧ clipRecordOf w = .ok { base := w.base.toNat, count := w.count.toNat, format := f, loopMode := m, loop := loopUnder m w
                               step := w.step.toNat, release }
      ∧ (w.releaseRate = 0 → release = none)
      ∧ (w.releaseRate ≠ 0 → ∃ k, release = some ⟨w.releaseRate.toNat, k⟩ ∧ k.code = w.releaseScale) := by
  unfold firstBadClipField at h
  repeat (split at h; · cases h)
  next format base count mode start finish step scale =>
  obtain ⟨f, hf⟩ := Format.exists_code (not_lt.1 format)
  obtain ⟨m, hm⟩ := LoopMode.exists_code (not_lt.1 mode)
  obtain ⟨release, read, given⟩ := releaseOf_ok scale 18
  have loops (hn : m ≠ .none) : w.loopMode ≠ 0 := hm ▸ mt m.code_eq_zero.1 hn
  refine ⟨f, m, release, hf, hm, ?_, given⟩
  rw [clipRecordOf_eq hf base count hm,
    loopOf_good (fun hn => not_and.1 start (loops hn)) fun hn => not_and.1 finish (loops hn), read]
  exact if_neg fun zero => step (BitVec.eq_of_toNat_eq zero)

end

/-! ### CLIP DEFINE, CLIP DELETE and CLIP READ (R124 to R126) -/

section

variable {s : State} {w : ClipWire} {clip : Byte} {c : Fin 64}

theorem finOf_clip (h : clip.toNat = c.val) : finOf 64 clip.toNat = some c := by
  rw [h]
  exact finOf_of_lt c.isLt

theorem doClipDefine_bad_clip (h : 63 < w.clip.toNat) : doClipDefine w s = badField s 0 := by
  unfold doClipDefine
  rw [finOf_of_le (by omega)]

theorem doClipDefine_error {k : Nat} (h : w.clip.toNat ≤ 63) (bad : clipRecordOf w = .error k) : doClipDefine w s = badField s k := by
  unfold doClipDefine
  rw [finOf_of_lt (by omega : w.clip.toNat < 64), bad]

theorem doClipDefine_ok {r : ClipRecord} (h : w.clip.toNat = c.val) (good : clipRecordOf w = .ok r) :
    doClipDefine w s = s.defineClip c r := by
  unfold doClipDefine
  rw [finOf_clip h, good]

theorem doClipDelete_good (h : clip.toNat = c.val) : doClipDelete clip s
    = if s.commitInFlight then refuse s .busy
      else if 0 < (s.clip c).useCount then refuse s .inUse
      else (Answer.ok, s.setClip c { s.clip c with record := none }) := by
  unfold doClipDelete
  rw [finOf_clip h]

theorem doClipRead_good (h : clip.toNat = c.val) :
    doClipRead clip s = (⟨.ok, byte1 (s.clip c).useCount :: definedClipBytes (s.clip c).record⟩, s) := by
  unfold doClipRead
  rw [finOf_clip h]

/-- A clip with no claim on it, its record replaced (R121, R122). -/
theorem State.setClip_unused (h : (s.clip c).useCount = 0) (r : Option ClipRecord) :
    s.setClip c { s.clip c with record := r } = { s with clips := s.clips.set c ⟨r, 0⟩ } := by
  rw [← h]
  rfl

end

/-- Settles O16: the first bad field is answered; with none, the owner's checks in their order, and the record. -/
theorem clipDefineChecksAndRecords : Obligations.ClipDefineChecksAndRecords := by
  unfold Obligations.ClipDefineChecksAndRecords
  refine ⟨fun tag w s hs => ?_, fun tag w c r s hs hc good => ?_⟩
  · intro n last bad
    have first : bad = if 63 < w.clip.toNat then some 0 else firstBadClipField w := rfl
    clear_value bad
    subst first
    refine ⟨fun k h => State.request_badField hs (type := 0x10) (by decide) tag ?_, fun h => ?_⟩
    · split at h
      · next bad => cases h; exact doClipDefine_bad_clip bad
      · next clip => exact doClipDefine_error (not_lt.1 clip) (clipRecordOf_error h)
    · split at h
      · cases h
      obtain ⟨f, m, release, hf, hm, good, unreleased, released⟩ := clipRecordOf_ok h
      have mode {q : LoopMode} (h : w.loopMode = q.code) : m = q := LoopMode.code_injective (hm.trans h)
      refine ⟨_, good, hf, rfl, rfl, rfl, fun none => ?_, fun forward => ?_, fun alternate => ?_, unreleased, released⟩
      · obtain rfl := mode (q := .none) none
        exact ⟨rfl, rfl⟩
      · obtain rfl := mode (q := .forward) forward
        exact ⟨rfl, rfl⟩
      · obtain rfl := mode (q := .alternate) alternate
        exact ⟨rfl, rfl⟩
  · intro suspect
    have touched : s.touchedSector r (fun x => x.suspect) = true ↔ suspect := State.touchedSector_iff ..
    have define := doClipDefine_ok (s := s.oweReply) hc good
    refine ⟨fun busy => ?_, fun idle used => ?_, fun idle unused bad => ?_, fun idle unused clear => ?_⟩
    · exact State.request_answers hs (type := 0x10) (t := s) (by decide) tag (define.trans (if_pos busy))
    · refine State.request_answers hs (type := 0x10) (t := s) (by decide) tag (define.trans ?_)
      exact (if_neg (ne_true_of_eq_false idle)).trans (if_pos used)
    · refine State.request_answers hs (type := 0x10) (t := s) (by decide) tag (define.trans ?_)
      exact (if_neg (ne_true_of_eq_false idle)).trans ((if_neg (by exact unused.not_gt)).trans (if_pos (by exact touched.2 bad)))
    · rw [← State.setClip_unused unused]
      refine State.request_answers hs (type := 0x10) (by decide) tag (define.trans ?_)
      exact (if_neg (ne_true_of_eq_false idle)).trans
        ((if_neg (by exact unused.not_gt)).trans (if_neg (by exact mt touched.1 clear)))

/-- Settles O17: the checks of CLIP DELETE, and the record that CLIP READ answers. -/
theorem clipDeleteAndClipRead : Obligations.ClipDeleteAndClipRead := by
  unfold Obligations.ClipDeleteAndClipRead
  refine ⟨fun tag clip s hs => ⟨fun bad => ?_, fun c hc => ⟨fun busy => ?_, fun idle used => ?_, fun idle unused => ?_⟩⟩,
    fun tag clip s hs => ⟨fun bad => ?_, fun c hc => ?_⟩⟩
  · refine State.request_badField hs (type := 0x11) (by decide) tag ?_
    unfold doClipDelete
    rw [finOf_of_le (by omega)]
  · refine State.request_answers hs (type := 0x11) (t := s) (by decide) tag ((doClipDelete_good hc).trans ?_)
    exact if_pos busy
  · refine State.request_answers hs (type := 0x11) (t := s) (by decide) tag ((doClipDelete_good hc).trans ?_)
    exact (if_neg (ne_true_of_eq_false idle)).trans (if_pos used)
  · rw [← State.setClip_unused unused]
    refine State.request_answers hs (type := 0x11) (by decide) tag ((doClipDelete_good hc).trans ?_)
    exact (if_neg (ne_true_of_eq_false idle)).trans (if_neg (by exact unused.not_gt))
  · refine State.request_badField hs (type := 0x12) (by decide) tag ?_
    unfold doClipRead
    rw [finOf_of_le (by omega)]
  · intro use
    have read := congrArg (Host.Outcome.next (ρ := Refusal) (φ := Fault))
      (State.request_unchanged hs tag 0x12 (doClipRead clip) _ (doClipRead_good hc))
    refine ⟨fun empty => ?_, fun r defined => ?_⟩
    · rw [State.clip_oweReply, empty] at read
      exact read
    · rw [State.clip_oweReply, defined] at read
      refine read.trans ?_
      rcases r with ⟨_, _, _, _, loop, _, release⟩
      cases loop <;> cases release <;> rfl

end Sys2Proof.Machine
end

section
/-! PROOFS. The store requests: STORE READ, STORE STATUS, and the operations that STORE ERASE, STORE PROGRAM and SETUP COMMIT begin (R128
to R130, R133, R134, R179, R184). -/

namespace Sys2Proof.Machine

/-! ### STORE READ (R133) -/

/-- The bytes of a range, by their addresses. -/
theorem Memory.readBytes_eq (m : Memory) (a n : Nat) : m.readBytes a n = (List.range n).map fun k => m.read (a + k) := by
  refine List.ext_getElem (by simp) fun k inside _ => ?_
  rw [Memory.getElem_readBytes _ _ _ _ inside, List.getElem_map, List.getElem_range]

/-- A range reaches into a busy sector where one of its bytes lies in it. -/
theorem State.rangeBusy_iff {s : State} {a n : Nat} (least : 1 ≤ n) :
    s.rangeBusy a n = true ↔ ∃ k, k < n ∧ ∃ i : Fin 128, i.val = (a + k) / 4096 ∧ (s.sectors.get i).busy = true := by
  unfold State.rangeBusy Config.sectorBytes
  rw [Table.anyIdx_iff]
  simp only [Bool.and_eq_true, decide_eq_true_eq]
  constructor
  · rintro ⟨i, ⟨busy, first⟩, last⟩
    exact ⟨i.val * 4096 - a, by omega, i, by omega, busy⟩
  · rintro ⟨k, below, i, place, busy⟩
    exact ⟨i, ⟨busy, by omega⟩, by omega⟩

section

variable {s : State} {addr : Addr} {count : Half}

/-- STORE READ of a range inside the store (R133). -/
theorem doStoreRead_inside (least : 1 ≤ count.toNat) (most : count.toNat ≤ 256) (inside : addr.toNat + count.toNat - 1 ≤ 524287) :
    doStoreRead addr count s = if s.rangeBusy addr.toNat count.toNat then refuse s .busy
      else (⟨.ok, Memory.readBytes s.mem addr.toNat count.toNat⟩, s) := by
  unfold doStoreRead Config.storeBytes
  rw [if_neg (by omega), if_neg (by omega)]

end

/-! ### STORE STATUS (R134, R179) -/

/-- A sector's two bytes in the store status record. -/
theorem sectorStatus_eq (x : Sector) : [byte1 ((if x.suspect then 1 else 0) + (if x.busy then 2 else 0)), byte1 x.useCount]
    = [if x.suspect then (if x.busy then (3 : Byte) else 1) else (if x.busy then 2 else 0), BitVec.ofNat 8 x.useCount] := by
  cases x.suspect <;> cases x.busy <;> rfl

/-- The store status record: the operation's seven bytes, then two for each sector. -/
theorem storeStatusBytes_eq (s : State) : storeStatusBytes s = opStatus s.op ++ s.sectors.cells.flatMap fun x =>
    [if x.suspect then (if x.busy then (3 : Byte) else 1) else (if x.busy then 2 else 0), BitVec.ofNat 8 x.useCount] := by
  unfold storeStatusBytes
  rw [funext sectorStatus_eq]

/-- Settles O18: the checks of STORE READ with the range's sectors, and the record of STORE STATUS. -/
theorem storeReadAndStoreStatus : Obligations.StoreReadAndStoreStatus := by
  unfold Obligations.StoreReadAndStoreStatus
  refine ⟨fun tag addr count s hs => ?_, fun tag s hs => ?_⟩
  · intro a n busy
    refine ⟨fun bad => ?_, fun start bad => ?_, fun least most inside h => ?_, fun least most inside h => ?_⟩
    · exact State.request_badField hs (type := 0x18) (by decide) tag (if_pos bad)
    · refine State.request_badField hs (type := 0x18) (by decide) tag ?_
      unfold doStoreRead Config.storeBytes
      rw [if_neg (by omega), if_pos (by omega)]
    · refine State.request_answers hs (type := 0x18) (t := s) (by decide) tag ((doStoreRead_inside least most inside).trans ?_)
      exact if_pos ((State.rangeBusy_iff (s := s) least).2 h)
    · have read := (doStoreRead_inside (s := s.oweReply) least most inside).trans
        (if_neg (mt (State.rangeBusy_iff (s := s) least).1 h))
      rw [Memory.readBytes_eq] at read
      exact congrArg Host.Outcome.next (State.request_unchanged hs tag 0x18 _ _ read)
  · intro sectors
    have answered := congrArg (Host.Outcome.next (ρ := Refusal) (φ := Fault)) (State.request_unchanged hs tag 0x1B doStoreStatus _ rfl)
    rw [storeStatusBytes_eq] at answered
    refine ⟨fun op => ?_, fun r op => ?_⟩
    · rw [State.op_oweReply, op] at answered
      exact answered
    · rw [State.op_oweReply, op] at answered
      refine answered.trans ?_
      clear op answered
      rcases r with ⟨op, _, page, _, step, _, _⟩
      cases op <;> cases page <;> cases step <;> rfl

/-! ### The operations (R129, R130, R184) -/

section

variable {s : State} {i : Fin 128} {r : OpRecord}

/-- What STORE ERASE and STORE PROGRAM have in common: the owner's conditions in their order, and the step begun. -/
theorem State.request_beginOn (hs : s.takesRequests) {type : Byte} (ht : type.toNat < 0x80) (tag : Byte) {f : Taking}
    (hf : f s.oweReply = s.oweReply.beginOn i r) :
    let answer := Host.Outcome.next (ρ := Refusal) (φ := Fault) (s.request tag type f)
    (s.op.isSome = true → answer = .next (s.replying tag (type + 0x80) .busy []))
    ∧ (s.op = none → i.val < 2 → answer = .next (s.replying tag (type + 0x80) .isProtected []))
    ∧ (s.op = none → 2 ≤ i.val → 0 < (s.sectors.get i).useCount → answer = .next (s.replying tag (type + 0x80) .inUse []))
    ∧ (s.op = none → 2 ≤ i.val → (s.sectors.get i).useCount = 0 →
        answer = .next ((s.beginStep r).replying tag (type + 0x80) .accepted [])) := by
  have none (op : s.op = none) : ¬s.oweReply.op.isSome = true := by simp [op]
  unfold State.beginOn at hf
  refine ⟨fun busy => ?_, fun op low => ?_, fun op high used => ?_, fun op high unused => ?_⟩
  · exact State.request_answers hs (t := s) ht tag (hf.trans (if_pos busy))
  · exact State.request_answers hs (t := s) ht tag (hf.trans ((if_neg (none op)).trans (if_pos low)))
  · refine State.request_answers hs (t := s) ht tag (hf.trans ((if_neg (none op)).trans ?_))
    exact (if_neg high.not_gt).trans (if_pos used)
  · refine State.request_answers hs (t := s.beginStep r) ht tag (hf.trans ((if_neg (none op)).trans ?_))
    exact (if_neg high.not_gt).trans (if_neg (by exact unused.not_gt))

end

/-- Settles O19: the checks of the three requests in their order, and the record of the step each begins. -/
theorem storeOperationsBegin : Obligations.StoreOperationsBegin := by
  unfold Obligations.StoreOperationsBegin
  refine ⟨fun tag sector s hs => ⟨fun bad => ?_, fun i hi => ?_⟩, fun tag addr data s hs => ⟨fun bad => ?_, fun length bad => ?_,
    fun i length aligned place => ?_⟩, fun tag s hs => ⟨fun busy => ?_, fun op => ?_⟩⟩
  · refine State.request_badField hs (type := 0x1A) (by decide) tag ?_
    unfold doStoreErase
    rw [finOf_of_le (by omega)]
  · have begins : doStoreErase sector s.oweReply = s.oweReply.beginOn i (eraseRecord i) := by
      unfold doStoreErase
      rw [hi, finOf_of_lt i.isLt]
    exact State.request_beginOn hs (type := 0x1A) (by decide) tag begins
  · exact State.request_answers hs (type := 0x19) (t := s) (by decide) tag (if_pos bad)
  · refine State.request_badField hs (type := 0x19) (by decide) tag ((if_neg (not_not.2 length)).trans ?_)
    rcases bad with far | unaligned
    · rw [finOf_of_le (by simp only [Config.sectorBytes]; omega)]
    · cases finOf 128 (addr.toNat / Config.sectorBytes) with
      | none => rfl
      | some i => exact if_pos unaligned
  · have begins : doStoreProgram addr data s.oweReply = s.oweReply.beginOn i (programRecord i addr.toNat data) := by
      unfold doStoreProgram Config.sectorBytes Config.pageBytes
      rw [if_neg (not_not.2 length), place, finOf_of_lt i.isLt]
      exact if_neg (not_not.2 aligned)
    exact State.request_beginOn hs (type := 0x19) (by decide) tag begins
  · exact State.request_answers hs (type := 0x1C) (t := s) (by decide) tag (if_pos busy)
  · exact State.request_answers hs (type := 0x1C) (t := s.beginStep (s.commitRecord 1)) (by decide) tag (if_neg (by simp [op]))

end Sys2Proof.Machine
end

section
/-! PROOFS. OUTPUT SET and the ends of the mute ramp (R142, R143, R146, R147). -/

namespace Sys2Proof.Machine

/-! ### OUTPUT SET (R143, R147) -/

/-- The first field of OUTPUT SET outside its range (R147). -/
def firstBadOutputField (mode : Byte) (left right : Half) (mute zone : Byte) : Option Byte :=
  if 1 < mode.toNat then some 0
  else if 4095 < left.toNat then some 1
  else if 4095 < right.toNat then some 3
  else if 1 < mute.toNat then some 5
  else if 15 < zone.toNat then some 6
  else none

theorem OutputMode.ofCode_of_lt {b : Byte} (h : 1 < b.toNat) : OutputMode.ofCode b = none := by
  unfold OutputMode.ofCode
  split
  · omega
  · omega
  · rfl

theorem OutputMode.ofCode_of_le {b : Byte} (h : ¬1 < b.toNat) : OutputMode.ofCode b = some (if b = 0 then .stereo else .mono) := by
  rcases (by omega : b.toNat = 0 ∨ b.toNat = 1) with e | e
  · rw [BitVec.eq_of_toNat_eq (y := 0) e]
    rfl
  · rw [BitVec.eq_of_toNat_eq (y := 1) e]
    rfl

section

variable {mode : Byte} {left right : Half} {mute zone : Byte}

/-- The settings of OUTPUT SET are read as its fields' checks allow, in the order of the fields. -/
theorem outputOf_eq : outputOf mode left right mute zone = match firstBadOutputField mode left right mute zone with
    | some k => .error k.toNat
    | none => .ok ⟨if mode = 0 then .stereo else .mono, left.toNat, right.toNat, yesNo mute, zone.toNat⟩ := by
  unfold outputOf firstBadOutputField Config.maxLevel
  by_cases h : 1 < mode.toNat
  · rw [OutputMode.ofCode_of_lt h, if_pos h]
    rfl
  · rw [OutputMode.ofCode_of_le h, if_neg h]
    dsimp only
    iterate 4
      split
      · rfl
    rfl

theorem doOutputSet_bad {k : Byte} (h : firstBadOutputField mode left right mute zone = some k) (s : State) :
    doOutputSet mode left right mute zone s = badField s k.toNat := by
  unfold doOutputSet
  rw [outputOf_eq, h]

theorem doOutputSet_good (h : firstBadOutputField mode left right mute zone = none) (s : State) :
    doOutputSet mode left right mute zone s = if s.commitInFlight then refuse s .busy else
      let o := s.out.take ⟨if mode = 0 then .stereo else .mono, left.toNat, right.toNat, yesNo mute, zone.toNat⟩
      (⟨.ok, o.mute.code :: be16 o.mutePos⟩, { s with out := o }) := by
  unfold doOutputSet
  rw [outputOf_eq, h]

/-- With no bad field the mute byte is 0 or 1. -/
theorem yesNo_of_good (h : firstBadOutputField mode left right mute zone = none) : yesNo mute = decide (mute = 1) := by
  have small : mute.toNat = 0 ∨ mute.toNat = 1 := by
    unfold firstBadOutputField at h
    iterate 4
      split at h
      · cases h
    omega
  rcases small with e | e
  · rw [BitVec.eq_of_toNat_eq (y := 0) e]
    rfl
  · rw [BitVec.eq_of_toNat_eq (y := 1) e]
    rfl

end

/-- A mute request goes toward its end unless it stands there (R143). -/
theorem muteRequest_eq (b : Bool) (m : MuteState) :
    muteRequest b m = if b then (if m = .muted then .muted else .muting) else if m = .unmuted then .unmuted else .unmuting := by
  cases b <;> cases m <;> rfl

/-! ### The mute ramp (R142) -/

theorem Out.muteEndsNext_iff (o : Out) :
    o.muteEndsNext = true ↔ (o.mute = .muting ∧ o.mutePos ≤ 1) ∨ (o.mute = .unmuting ∧ 255 ≤ o.mutePos) := by
  unfold Out.muteEndsNext Config.fullMute
  cases o.mute <;> simp

section

variable {s : State}

theorem exec_muteRampEnd (on : s.power = true) (share : s.progress.mute = false) (ends : s.out.muteEndsNext = true) :
    exec .muteRampEnd s = .next { s with out := s.out.stepMute, progress := { s.progress with mute := true } } := by
  show Host.Outcome.next s.muteAhead = _
  unfold State.muteAhead
  rw [on, share, ends]
  rfl

theorem exec_muteRampEnd_idle (h : ¬s.out.muteEndsNext = true) : exec .muteRampEnd s = .next s := by
  show Host.Outcome.next s.muteAhead = _
  unfold State.muteAhead
  rw [Bool.eq_false_of_not_eq_true h, Bool.and_false]
  rfl

end

/-- The step that ends MUTING. -/
theorem muteStep_muting_ends {pos : Nat} (last : pos ≤ 1) : muteStep .muting pos = (.muted, 0) := if_pos last

/-- The step that ends UNMUTING. -/
theorem muteStep_unmuting_ends {pos : Nat} (last : 255 ≤ pos) : muteStep .unmuting pos = (.unmuted, 256) :=
  if_pos (Nat.succ_le_succ last)

/-- Where the ramp ends in MUTED the pins are blank from its step on (R146). -/
theorem Out.stepMute_muting_ends {o : Out} (muting : o.mute = .muting) (last : o.mutePos ≤ 1) :
    o.stepMute = { o with mute := .muted, mutePos := 0, shown := { o.shown with blank := true } } := by
  unfold Out.stepMute
  rw [muting, muteStep_muting_ends last, ← Bool.or_true o.shown.blank]
  rfl

theorem Out.stepMute_unmuting_ends {o : Out} (unmuting : o.mute = .unmuting) (last : 255 ≤ o.mutePos) :
    o.stepMute = { o with mute := .unmuted, mutePos := 256 } := by
  unfold Out.stepMute
  rw [unmuting, muteStep_unmuting_ends last]
  dsimp only
  rw [decide_eq_false nofun, Bool.or_false]

/-- Settles O46: the fields in their order, then the commit in flight, then the settings; and the two ends of the mute ramp. -/
theorem outputSetAndTheMuteRamp : Obligations.OutputSetAndTheMuteRamp := by
  unfold Obligations.OutputSetAndTheMuteRamp
  refine ⟨fun tag mode left right mute zone s hs => ?_, fun s on share => ⟨fun muting last => ?_,
    fun unmuting last => ?_, fun h => ?_⟩⟩
  · intro bad asked code
    refine ⟨fun k h => ?_, fun h busy => ?_, fun h idle => ?_⟩
    · refine (State.request_badField hs (type := 0x40) (by decide) tag (doOutputSet_bad h _)).trans ?_
      rw [BitVec.ofNat_toNat, BitVec.setWidth_eq]
      rfl
    · exact State.request_answers hs (type := 0x40) (t := s) (by decide) tag ((doOutputSet_good h _).trans (if_pos busy))
    · have answered : asked.code = code := by
        show asked.code = match asked with
          | .unmuted => 0
          | .muting => 1
          | .muted => 2
          | .unmuting => 3
        cases asked <;> rfl
      have request : muteRequest (yesNo mute) s.out.mute = asked := by
        rw [yesNo_of_good h, muteRequest_eq]
        simp only [decide_eq_true_eq]
        rfl
      refine congrArg Host.Outcome.next ((State.request_taken hs ..).trans ?_)
      rw [(doOutputSet_good h s.oweReply).trans (if_neg (ne_true_of_eq_false idle)), ← answered, ← request]
      rfl
  · rw [exec_muteRampEnd on share (s.out.muteEndsNext_iff.2 (.inl ⟨muting, last⟩)), Out.stepMute_muting_ends muting last]
  · rw [exec_muteRampEnd on share (s.out.muteEndsNext_iff.2 (.inr ⟨unmuting, last⟩)), Out.stepMute_unmuting_ends unmuting last]
  · refine exec_muteRampEnd_idle fun ends => ?_
    have ends := s.out.muteEndsNext_iff.1 ends
    rcases h with h | h | ⟨h, early⟩ | ⟨h, early⟩
    all_goals simp [h] at ends
    all_goals omega

end Sys2Proof.Machine
end

section
/-! PROOFS. A frame with no voice sounding: the empty mix with its mute step, and the tick of the 32nd frame, of which shares may have been
taken (R83, R91, R109, R128, R137 to R139, R142, R144, R146). -/

namespace Sys2Proof.Machine

/-! ### The mix of no voice (R139 to R146) -/

theorem scaleBy_zero (level : Nat) : scaleBy 0 level = 0 := by simp [scaleBy]

section

variable {o : Out}

theorem Out.bus_silent (h : ∀ v, o.contributions.get v = (0, 0)) : o.bus = (0, 0) := by
  rw [Out.bus_eq]
  simp [h]

theorem Out.values_silent : o.values (0, 0) = (0, 0) := by
  unfold Out.values
  cases o.mode <;> simp [scaleBy_zero]

theorem Out.clips_silent (h : ∀ v, o.contributions.get v = (0, 0)) : o.clips = false := by
  unfold Out.clips
  rw [Out.bus_silent h, Out.values_silent]
  rfl

/-- What a frame without a contribution shows. -/
theorem Out.formed_silent (h : ∀ v, o.contributions.get v = (0, 0)) : o.formed =
    { busLeft := 0, busRight := 0, left := 0, right := 0, dutyLeft := 128, dutyRight := 128, zone := o.deadZone
      blank := decide (o.mute = .muted ∨ o.mutePos = 0) } := by
  have nothing : muted (limit 0) o.mutePos = 0 := by simp [muted, limit]
  unfold Out.formed
  dsimp only
  rw [Out.bus_silent h, Out.values_silent, nothing, Bool.decide_or]
  rfl

end

/-- The mute step as R142 writes it; where it gives a state no step, the position is at the ramp's end (log 25). -/
theorem muteStep_muting (pos : Nat) : muteStep .muting pos = (if pos ≤ 1 then .muted else .muting, pos - 1) := by
  by_cases last : pos ≤ 1
  · rw [muteStep_muting_ends last, if_pos last, Nat.sub_eq_zero_of_le last]
  · rw [if_neg last]
    exact if_neg last

theorem muteStep_unmuting (pos : Nat) :
    muteStep .unmuting pos = (if 255 ≤ pos then .unmuted else .unmuting, min 256 (pos + 1)) := by
  by_cases last : 255 ≤ pos
  · rw [muteStep_unmuting_ends last, if_pos last, Nat.min_eq_left (Nat.succ_le_succ last)]
  · rw [if_neg last, Nat.min_eq_right (by omega)]
    exact if_neg (by simp only [Config.fullMute]; omega)

/-- The mute state and position of a frame: the step is made unless a command has had it made (R142, log 3). -/
def State.muteMade (s : State) : MuteState × Nat :=
  if s.progress.mute then (s.out.mute, s.out.mutePos) else muteStep s.out.mute s.out.mutePos

/-- OUT in a frame without a contribution, before the sub-count moves on. -/
def State.silentOut (s : State) : Out :=
  { s.out with
    mute := s.muteMade.1
    mutePos := s.muteMade.2
    contributions := Table.const 16 (0, 0)
    shown := { busLeft := 0, busRight := 0, left := 0, right := 0, dutyLeft := 128, dutyRight := 128
               zone := s.out.deadZone, blank := decide (s.muteMade.1 = .muted ∨ s.muteMade.2 = 0) } }

section

variable {s : State}

theorem State.mixedOut_silent (h : s.out.contributions = Table.const 16 (0, 0)) : s.mixedOut = s.silentOut := by
  have none (v : Fin 16) : s.out.contributions.get v = (0, 0) := by rw [h]; exact Table.get_const ..
  unfold State.mixedOut State.silentOut State.muteMade
  rw [← h]
  cases s.progress.mute with
  | true =>
    simp only [if_true]
    rw [Out.formed_silent none]
  | false =>
    simp only [Bool.false_eq_true, if_false]
    rw [Out.formed_silent (o := s.out.stepMute) none]
    rfl

theorem State.mixFrame_silent (h : s.out.contributions = Table.const 16 (0, 0)) : s.mixFrame = { s with out := s.silentOut } := by
  have quiet : s.silentOut.clips = false := Out.clips_silent fun v => Table.get_const ..
  rw [State.mixFrame_eq, State.mixedOut_silent h, quiet]
  rfl

/-- With every voice FREE the voices' work is their silence. -/
theorem State.voicesThrough_free (start : s.progress.voices = 0) (free : ∀ v, (s.voice v).body = .free) :
    s.voicesThrough 15 = s.contributing (Table.const 16 (0, 0)) := by
  rw [State.voicesThrough_eq]
  obtain ⟨cs, run⟩ := State.foldl_voiceFrame_free (voicesFrom s.progress.voices 15) s fun v _ => free v
  have silence : cs = Table.const 16 (0, 0) := Table.ext_get fun v => by
    have outcome := State.frameOutcome_foldl (mem_voicesFrom.2 (start.trans_le v.val.zero_le)) (nodup_voicesFrom ..) s
    rw [run] at outcome
    exact (outcome.free (free v)).1.trans (Table.get_const ..).symm
  rw [run, silence]

/-- A receiver that does not collect has no gap to count (R101, R162). -/
theorem State.hostGapShare_still (h : s.lnk.rx ≠ .collecting) : s.hostGapShare = s := by
  unfold State.hostGapShare State.hostGapFrame
  rw [if_neg fun counts => h (s.lnk.gapCounts_iff.1 counts).1, ite_self]

theorem State.trigGapShare_still (h : s.trg.rx ≠ .collecting) : s.trigGapShare = s := by
  unfold State.trigGapShare State.trigGapFrame
  rw [if_neg fun counts => h (s.trg.gapCounts_iff.1 counts).1, ite_self]

/-- A frame with no voice standing and no line collecting, up to its sub-count. -/
theorem State.frame_silent (start : s.progress.voices = 0) (free : ∀ v, (s.voice v).body = .free)
    (host : s.lnk.rx ≠ .collecting) (trig : s.trg.rx ≠ .collecting) :
    s.frame = ({ s with out := s.silentOut } : State).endFrame := by
  unfold State.frame
  rw [State.voicesThrough_free start free, State.mixFrame_silent (by rfl), State.hostGapShare_still (by exact host),
    State.trigGapShare_still (by exact trig)]
  rfl

/-! ### The tick of a frame, of which shares may have been taken (log 3) -/

theorem State.settleTicked_last (h : ∀ l : Fin 4, s.progress.lanes = l.val + 1 → (s.lane l).state ≠ .running) :
    s.settleTicked = s := by
  unfold State.settleTicked
  split
  · rfl
  · next l last => exact State.settle_stands (h l (by simpa using List.find?_some last)) _

/-- The lanes that the tick still comes to only count, and the others have had it. -/
theorem State.lanesThrough_rest (settled : s.settleTicked = s) (counts : ∀ l : Fin 4, s.progress.lanes ≤ l.val → (s.lane l).Counts) :
    ∃ lanes, s.lanesThrough 3 = { s with lanes := lanes }
      ∧ ∀ l : Fin 4, lanes.get l = if l.val < s.progress.lanes then s.lane l else (s.lane l).countedDown := by
  obtain ⟨lanes, run, result⟩ := State.tickInTurn_counts (s.nodup_tickTurns 3) fun l hl => counts l (State.mem_tickTurns.1 hl).1.1
  refine ⟨lanes, (State.lanesThrough_eq settled 3).trans run, fun l => (result l).trans ?_⟩
  by_cases taken : l.val < s.progress.lanes
  · rw [if_pos taken, if_neg fun hl => (State.mem_tickTurns.1 hl).1.1.not_gt taken]
  · rw [if_neg taken]
    split
    · rfl
    · next other =>
      have idle : (s.lane l).takesTicks = false :=
        Bool.eq_false_of_not_eq_true fun takes => other (State.mem_tickTurns.2 ⟨⟨by omega, by omega⟩, takes⟩)
      exact (Lane.countedDown_of_not_takesTicks idle).symm

theorem State.countShare_rest (s : State) : s.countShare = { s with
    out := { s.out with msCount := if s.progress.count ∨ s.nrst then s.out.msCount else s.out.msCount + 1 } } := by
  unfold State.countShare
  simp only [Bool.or_eq_true]
  split <;> rfl

theorem State.holdoffShare_rest (s : State) : s.holdoffShare = { s with
    trg := { s.trg with bindings := if s.progress.holdoffs then s.trg.bindings
      else s.trg.bindings.map fun b => { b with holdoffLeft := b.holdoffLeft - 1 } } } := by
  unfold State.holdoffShare
  split <;> rfl

theorem State.storeShare_rest (limit : s.progress.store = false → ∀ r, s.op = some r → 1 < r.limitLeft) :
    s.storeShare = { s with
      op := if s.progress.store then s.op else s.op.map fun r => { r with limitLeft := r.limitLeft - 1 } } := by
  unfold State.storeShare
  split
  · rfl
  · next due => exact State.tickStore_counts (limit (Bool.eq_false_of_not_eq_true due))

/-- A tick that only counts, at the blocks that have not taken it. -/
theorem State.tickRest_counts (last : ∀ l : Fin 4, s.progress.lanes = l.val + 1 → (s.lane l).state ≠ .running)
    (counts : ∀ l : Fin 4, s.progress.lanes ≤ l.val → (s.lane l).Counts)
    (limit : s.progress.store = false → ∀ r, s.op = some r → 1 < r.limitLeft) :
    ∃ lanes, (∀ l : Fin 4, lanes.get l = if l.val < s.progress.lanes then s.lane l else (s.lane l).countedDown)
      ∧ s.tickRest = { s with
        out := { s.out with msCount := if s.progress.count ∨ s.nrst then s.out.msCount else s.out.msCount + 1 }
        lanes := lanes
        trg := { s.trg with bindings := if s.progress.holdoffs then s.trg.bindings
          else s.trg.bindings.map fun b => { b with holdoffLeft := b.holdoffLeft - 1 } }
        op := if s.progress.store then s.op else s.op.map fun r => { r with limitLeft := r.limitLeft - 1 } } := by
  have same := SameTick.countShare s
  obtain ⟨lanes, run, result⟩ := State.lanesThrough_rest (s := s.countShare)
    (State.settleTicked_last (by simpa only [same.progress, same.lane] using last))
    (by simpa only [same.progress, same.lane] using counts)
  refine ⟨lanes, by simpa only [same.progress, same.lane] using result, ?_⟩
  unfold State.tickRest
  rw [run, State.countShare_rest, State.holdoffShare_rest, State.storeShare_rest (by exact limit)]

/-- The end of the 32nd frame (R137). -/
theorem State.endFrame_ticks (comes : s.tickComes = true) : s.endFrame = { s.tickRest with
    out := { s.tickRest.out with frameSub := 0 }, progress := Progress.start } := by
  unfold State.endFrame
  simp only [comes, if_true]

end

/-- Settles O42: the frame is the mix of no voice and the end of the frame, with the tick at every block that has not taken it. -/
theorem silentFrame : Obligations.SilentFrame := by
  unfold Obligations.SilentFrame
  intro s on start free host trig made mute framed
  have step : made = muteStep s.out.mute s.out.mutePos := by
    show (match s.out.mute with
      | .muting => (if s.out.mutePos ≤ 1 then .muted else .muting, s.out.mutePos - 1)
      | .unmuting => (if 255 ≤ s.out.mutePos then .unmuted else .unmuting, min 256 (s.out.mutePos + 1))
      | m => (m, s.out.mutePos) : MuteState × Nat) = _
    cases s.out.mute with
    | muting => exact (muteStep_muting _).symm
    | unmuting => exact (muteStep_unmuting _).symm
    | _ => rfl
  have mixed : s.silentOut = framed := by
    have same : s.muteMade = mute := by
      unfold State.muteMade
      rw [← step]
    unfold State.silentOut
    rw [same]
  have frame := (exec_frame on).trans (congrArg Host.Outcome.next (State.frame_silent start free host trig))
  rw [mixed] at frame
  refine ⟨fun early => ?_, fun tick last counting limit => ?_⟩
  · rw [frame, State.endFrame_no_tick (by exact early)]
  · obtain ⟨lanes, counted, run⟩ := State.tickRest_counts (s := { s with out := framed }) last
      (fun l hl => ⟨(counting l hl).1, (counting l hl).2⟩) limit
    rw [State.endFrame_ticks (State.tickComes_of_sub (by exact tick)), run] at frame
    refine ⟨_, frame, fun l => (counted l).trans ?_, rfl⟩
    refine if_congr Iff.rfl rfl ?_
    show (s.lane l).countedDown = _
    generalize s.lane l = x
    rcases hw : x.wait with _ | _ | _ | _ | _ <;> cases hn : x.notice <;> simp only [Lane.countedDown, hw, hn]

end Sys2Proof.Machine
end

section
/-! PROOFS. The mix of a frame from its buses to the duties, and the pins in each count of a carrier period (R139 to R146). -/

namespace Sys2Proof.Machine

/-! ### The values of a frame (R140 to R142) -/

/-- A value beyond the range is brought to its nearer end (R141). -/
theorem limit_eq (x : Int) : limit x = if x < -32767 then -32767 else if 32767 < x then 32767 else x := by
  unfold limit
  split
  · omega
  · split <;> omega

theorem limit_bounds (x : Int) : -32767 ≤ limit x ∧ limit x ≤ 32767 := by
  unfold limit
  omega

/-- The mute gain keeps a limited value in the range of the output stage (R142). -/
theorem muted_bounds {x : Int} {pos : Nat} (low : -32767 ≤ x) (high : x ≤ 32767) (full : pos ≤ 256) :
    -32767 ≤ muted x pos ∧ muted x pos ≤ 32767 := by
  have size : (muted x pos).natAbs = x.natAbs * pos / 256 := by
    unfold muted
    rw [Int.natAbs_tdiv, Int.natAbs_mul]
    rfl
  have small : x.natAbs * pos ≤ 32767 * 256 := Nat.mul_le_mul (by omega) full
  omega

/-- The duty of a value in the range (R144). -/
theorem duty_bounds {x : Int} (low : -32767 ≤ x) (high : x ≤ 32767) : (duty x : Int) = 128 + Int.fdiv x 256 ∧ duty x ≤ 255 := by
  unfold duty
  rw [Int.fdiv_eq_ediv_of_nonneg _ (by decide)]
  omega

/-- The mute gain of a limited value gives a duty of one byte (R141, R142, R144). -/
theorem duty_muted_limit (x : Int) {pos : Nat} (full : pos ≤ 256) :
    (duty (muted (limit x) pos) : Int) = 128 + Int.fdiv (muted (limit x) pos) 256 ∧ duty (muted (limit x) pos) ≤ 255 := by
  obtain ⟨low, high⟩ := limit_bounds x
  obtain ⟨low, high⟩ := muted_bounds low high full
  exact duty_bounds low high

section

variable {o : Out} (bus : Int × Int)

theorem Out.values_stereo (h : o.mode = .stereo) :
    o.values bus = (scaleBy bus.1 o.leftMaster, scaleBy bus.2 o.rightMaster) := by
  unfold Out.values
  rw [h]

theorem Out.values_mono (h : o.mode = .mono) :
    o.values bus = (Int.tdiv (scaleBy bus.1 o.leftMaster + scaleBy bus.2 o.rightMaster) 2,
      Int.tdiv (scaleBy bus.1 o.leftMaster + scaleBy bus.2 o.rightMaster) 2) := by
  unfold Out.values
  rw [h]

end

/-! ### The pins (R145, R146) -/

theorem plusHigh_iff (d z n : Nat) : plusHigh d z n = true ↔ z ≤ n ∧ n < d := by simp [plusHigh]

theorem minusHigh_iff {n : Nat} (last : n ≤ 255) (d z : Nat) : minusHigh d z n = true ↔ d + z ≤ n := by simp [minusHigh, last]

/-- Never both pins of one side are high (R145). -/
theorem not_plusHigh_and_minusHigh (d z n : Nat) : ¬(plusHigh d z n = true ∧ minusHigh d z n = true) := by
  simp only [plusHigh, minusHigh, Bool.and_eq_true, decide_eq_true_eq]
  omega

theorem FrameOut.pins_blank {f : FrameOut} (h : f.blank = true) (n : Nat) : f.pins n = (false, false, false, false) := if_pos h

theorem FrameOut.pins_run {f : FrameOut} (h : f.blank = false) (n : Nat) : f.pins n =
    (plusHigh f.dutyLeft f.zone n, minusHigh f.dutyLeft f.zone n, plusHigh f.dutyRight f.zone n, minusHigh f.dutyRight f.zone n) :=
  if_neg (ne_true_of_eq_false h)

end Sys2Proof.Machine
end

section
/-! PROOFS. Every step keeps the pins blank while the mute state is MUTED (R142, R143, R146 to R148, R182). -/

namespace Sys2Proof.Machine

/-- The pins are blank if the mute state is MUTED (R146). -/
def Out.BlankIfMuted (o : Out) : Prop := o.mute = .muted → o.shown.blank = true

/-- That the pins are blank if MUTED goes over from one state to another. -/
structure KeepsBlank (s t : State) : Prop where
  blank : s.out.BlankIfMuted → t.out.BlankIfMuted

/-! ### OUT's own operations (R142, R143, R146) -/

namespace Out

/-- The step that brings MUTED blanks the pins, whatever was shown before. -/
theorem blankIfMuted_stepMute (o : Out) : o.stepMute.BlankIfMuted := fun muted => by
  have muted : (muteStep o.mute o.mutePos).1 = .muted := muted
  show (o.shown.blank || decide ((muteStep o.mute o.mutePos).1 = .muted)) = true
  rw [muted]
  exact Bool.or_true _

/-- What a frame forms is blank in MUTED. -/
theorem blankIfMuted_formed (o : Out) : ({ o with shown := o.formed }).BlankIfMuted := fun muted => by
  have muted : o.mute = .muted := muted
  show (decide (o.mute = .muted) || decide (o.mutePos = 0)) = true
  rw [muted]
  rfl

/-- No request brings MUTED (R143). -/
theorem blankIfMuted_take {o : Out} (h : o.BlankIfMuted) (x : OutputSettings) : (o.take x).BlankIfMuted := fun muted => by
  have muted : muteRequest x.muted o.mute = .muted := muted
  refine h ?_
  rw [muteRequest_eq] at muted
  split at muted
  · split at muted
    · assumption
    · cases muted
  · split at muted <;> cases muted

end Out

namespace KeepsBlank

variable {s t u : State}

theorem trans (h : KeepsBlank s t) (k : KeepsBlank t u) : KeepsBlank s u := ⟨k.blank ∘ h.blank⟩

/-- An update that leaves the mute state and what is shown as they were. -/
theorem beside (mute : t.out.mute = s.out.mute) (shown : t.out.shown = s.out.shown) : KeepsBlank s t := by
  refine ⟨fun h => ?_⟩
  unfold Out.BlankIfMuted
  rw [mute, shown]
  exact h

theorem refl (s : State) : KeepsBlank s s := ⟨id⟩

/-- Behind an update beside OUT. -/
theorem after (h : KeepsBlank t u) (out : t.out = s.out) : KeepsBlank s u := ⟨fun law => h.blank (by rw [out]; exact law)⟩

/-- Voices, allocator and lanes reach OUT by the contributions alone. -/
theorem of_moves (h : Moves s t) : KeepsBlank s t := by
  refine beside ?_ ?_ <;> rw [h.untouched.out]

theorem post (s : State) (k : EventKind) (n : Nat) (g r : Byte) (x : BitVec 32) : KeepsBlank s (s.post k n g r x) := of_moves (.post ..)

theorem raise (s : State) (k : Tally) : KeepsBlank s (s.raise k) := beside rfl rfl

/-- A cold part is blank (R148). -/
theorem of_cold (h : t.out = Out.cold) : KeepsBlank s t := ⟨fun _ _ => by rw [h]; rfl⟩

/-! ### The owners of the requests (R164, R166, R174) -/

/-- An answer beside the state. -/
theorem answered {α : Type} (h : KeepsBlank s t) (a : α) : KeepsBlank s (a, t).2 := h

theorem onLane (lane : Byte) {f : Fin 4 → Taking} (keeps : ∀ l, KeepsBlank s (f l s).2) : KeepsBlank s (onLane lane f s).2 := by
  unfold Machine.onLane
  split
  · exact refl s
  · exact keeps _

theorem onVoice (voice g : Byte) {f : State → Handle → Status × State} (moves : ∀ h, Moves s (f s h).2) :
    KeepsBlank s (onVoice voice g f s).2 := by
  unfold Machine.onVoice
  split
  · exact refl s
  · exact of_moves (moves _)

theorem doOutputSet (s : State) (mode : Byte) (left right : Half) (mute zone : Byte) :
    KeepsBlank s (doOutputSet mode left right mute zone s).2 := by
  unfold Machine.doOutputSet
  split
  · exact refl s
  · split
    · exact refl s
    · next x _ _ => exact ⟨fun h => Out.blankIfMuted_take h x⟩

theorem doCueWrite (s : State) (slot : Byte) (block : List Byte) : KeepsBlank s (doCueWrite slot block s).2 := by
  unfold Machine.doCueWrite
  split
  · exact refl s
  split
  · exact refl s
  next b _ =>
  unfold State.writeCue
  split
  · exact refl s
  split
  · exact refl s
  · have filled : KeepsBlank s (s.setCue slot.toFin (some b)) := beside rfl rfl
    exact (filled.trans (of_moves (.wakeStarved ..))).answered _

theorem doLaneStart (s : State) (lane slot clear : Byte) : KeepsBlank s (doLaneStart lane slot clear s).2 :=
  onLane lane fun l => by
    unfold State.laneStartAt
    split
    · exact (of_moves (.startLane ..)).answered _
    · exact (of_moves (.startLane ..)).answered _
    all_goals exact refl s

theorem doLaneAbort (s : State) (lane voices : Byte) : KeepsBlank s (doLaneAbort lane voices s).2 :=
  onLane lane fun l => by
    split
    · exact refl s
    · exact (of_moves (.abortLane ..)).answered _

theorem doVoicePlay (s : State) (w : OrderWire) : KeepsBlank s (doVoicePlay w s).2 := by
  unfold Machine.doVoicePlay
  split
  · exact refl s
  · next o _ =>
    have order := of_moves (.takeOrder s o .link)
    unfold State.playAnswer
    split <;> next e => rw [e] at order; exact order

theorem doVoiceRamp (s : State) (voice g : Byte) (target : Half) (rate scale mode notify : Byte) :
    KeepsBlank s (doVoiceRamp voice g target rate scale mode notify s).2 := by
  unfold Machine.doVoiceRamp
  split
  · exact refl s
  · split
    · exact refl s
    · exact of_moves (.opRamp ..)

theorem doEventRead (s : State) (count : Byte) : KeepsBlank s (doEventRead count s).2 := by
  unfold Machine.doEventRead
  split
  · exact refl s
  · have notices : KeepsBlank s s.releaseNotices := of_moves (.foldl State.postNotice .postNotice ..)
    exact notices.trans (beside rfl rfl)

end KeepsBlank

/-- The owner of a request keeps the pins blank: OUTPUT SET alone reaches the mute state (R143). -/
theorem RequestOwner.keepsBlank {f : Taking} (owner : RequestOwner f) (s : State) : KeepsBlank s (f s).2 := by
  cases owner with
  | outputSet => exact .doOutputSet ..
  | cueWrite => exact .doCueWrite ..
  | laneStart => exact .doLaneStart ..
  | lanePause => exact .onLane _ fun l => .of_moves (.pauseRequest s l)
  | laneResume => exact .onLane _ fun l => .of_moves (.resumeLane s l)
  | laneAbort => exact .doLaneAbort ..
  | voicePlay => exact .doVoicePlay ..
  | voiceRamp => exact .doVoiceRamp ..
  | voiceRelease => exact .onVoice _ _ (.opRelease s)
  | voiceStop => exact .onVoice _ _ (.opStop s)
  | voiceHold => exact .onVoice _ _ (.opHold s)
  | voiceContinue => exact .onVoice _ _ (.opContinue s)
  | eventRead => exact .doEventRead ..
  | laneStatus => exact .onLane _ fun _ => .refl s
  | autostartSet => exact .onLane _ fun l => by split <;> exact .beside rfl rfl
  | storeProgram | storeErase | storeRead | setupCommit | clipDefine | clipDelete | clipRead | cueClear | cueRead | voiceStatus
  | filterSet | bindSet | bindClear | bindRead | triggerSet | tallyRead | linkSet =>
    simp only [doStoreProgram, doStoreErase, State.beginOn, doStoreRead, doSetupCommit, doClipDefine, State.defineClip, doClipDelete,
      doClipRead, doCueClear, doCueRead, doVoiceStatus, doFilterSet, doBindSet, doBindClear, doBindRead, doTriggerSet, doTallyRead,
      doLinkSet]
    repeat' split
    all_goals exact .beside rfl rfl
  | refused | badField | identify | storeStatus | resetCold | resetWarm => exact .beside rfl rfl

namespace KeepsBlank

variable {s t : State}

/-! ### The host line (R161 to R166) -/

theorem takeRequest {f : Taking} (owner : RequestOwner f) (s : State) (tag type : Byte) : KeepsBlank s (s.takeRequest tag type f) :=
  ((beside rfl rfl : KeepsBlank s s.oweReply).trans (owner.keepsBlank _)).trans (beside rfl rfl)

theorem request {f : Taking} (owner : RequestOwner f) (s : State) (tag type : Byte) : KeepsBlank s (s.request tag type f) := by
  unfold State.request
  split
  · exact refl s
  · split
    · exact beside rfl rfl
    · exact takeRequest owner ..

theorem takeFrame (s : State) (bytes : List Byte) (length : Nat) : KeepsBlank s (s.takeFrame bytes length) := by
  unfold State.takeFrame
  dsimp only
  split
  · exact beside rfl rfl
  · split
    · exact beside rfl rfl
    · exact takeRequest (.requestOf _ _) ..

theorem keepByte (s : State) (held : List Byte) : KeepsBlank s (s.keepByte held) := by
  unfold State.keepByte
  split
  · exact beside rfl rfl
  split
  · exact beside rfl rfl
  split
  · exact beside rfl rfl
  · exact (takeFrame ..).after rfl

theorem noteLnk (s : State) (r : Reception) : KeepsBlank s (s.noteLnk r) := by
  unfold State.noteLnk
  split <;> exact beside rfl rfl

theorem hostTake (s : State) (b : Byte) (good : Bool) : KeepsBlank s (s.hostTake b good) := by
  unfold State.hostTake
  split
  · exact refl s
  · split <;> exact beside rfl rfl
  · split
    · exact keepByte ..
    · exact beside rfl rfl

theorem hostByte (s : State) (b : Byte) (good : Bool) : KeepsBlank s (s.hostByte b good) := by
  unfold State.hostByte
  split
  · exact noteLnk ..
  · exact (noteLnk ..).trans (hostTake ..)

theorem hostLine (s : State) (good : Bool) (e : LineEvent) : KeepsBlank s (s.hostLine good e) := by
  cases e with
  | startBit => exact noteLnk ..
  | byte b => exact hostByte ..

theorem hostGapFrame (s : State) : KeepsBlank s s.hostGapFrame := by
  unfold State.hostGapFrame
  split
  · split <;> exact beside rfl rfl
  · exact refl s

/-! ### The trigger line (R100 to R110) -/

theorem bindingActs (s : State) (i : Fin 32) : KeepsBlank s (s.bindingActs i) := by
  have loaded : KeepsBlank s (s.loadHoldoff i) := beside rfl rfl
  have start := loaded.trans (of_moves (.bindingStart (s.loadHoldoff i) i (s.binding i)))
  unfold State.bindingActs
  dsimp only
  rw [← State.loadHoldoff]
  split
  · exact beside rfl rfl
  · split
    · next e => rw [e] at start; exact start.trans (raise ..)
    · next e => rw [e] at start; exact start

theorem fireBindings (s : State) (c : Code) : KeepsBlank s (s.fireBindings c).2 := by
  rw [State.fireBindings_eq]
  exact List.foldlRecOn _ _ (refl s) fun t h i _ => h.trans (bindingActs t i)

theorem routeCode (s : State) (c : Code) : KeepsBlank s (s.routeCode c) := by
  have posted (b : Prop) [Decidable b] (r : Byte) (u : State) : KeepsBlank u (if b then u.postTrigger r c else u) := by
    split
    · exact post ..
    · exact refl u
  rcases woke : (s.reported c).reportCode c with ⟨n, t⟩
  rcases acted : t.fireBindings c with ⟨m, u⟩
  have woken := (posted (s.trg.report = .all) 0 s).trans (of_moves (.reportCode (s.reported c) c))
  have fired := fireBindings t c
  rw [woke] at woken
  rw [acted] at fired
  rw [State.routeCode_eq woke acted]
  refine woken.trans (fired.trans ?_)
  split
  · exact (raise u .trigUnbound).trans (posted (u.trg.report = .unbound) ..)
  · exact refl u

theorem trigFrame (s : State) (held : List Byte) : KeepsBlank s (s.trigFrame held) := by
  unfold State.trigFrame
  dsimp only
  split
  · exact beside rfl rfl
  · split
    · exact routeCode ..
    · exact refl s

theorem noteTrg (s : State) (r : Reception) : KeepsBlank s (s.noteTrg r) := by
  unfold State.noteTrg
  split <;> exact beside rfl rfl

theorem trigTake (s : State) (b : Byte) (good : Bool) : KeepsBlank s (s.trigTake b good) := by
  unfold State.trigTake
  split
  · exact refl s
  · split <;> exact beside rfl rfl
  · split
    · dsimp only
      split
      · exact beside rfl rfl
      · exact (trigFrame ..).after rfl
    · exact beside rfl rfl

theorem trigByte (s : State) (b : Byte) (good : Bool) : KeepsBlank s (s.trigByte b good) := by
  unfold State.trigByte
  split
  · exact noteTrg ..
  · exact (noteTrg ..).trans (trigTake ..)

theorem trigLine (s : State) (good : Bool) (e : LineEvent) : KeepsBlank s (s.trigLine good e) := by
  cases e with
  | startBit => exact noteTrg ..
  | byte b => exact trigByte ..

theorem trigGapFrame (s : State) : KeepsBlank s s.trigGapFrame := by
  unfold State.trigGapFrame
  split
  · split <;> exact beside rfl rfl
  · exact refl s

/-! ### Store steps (R128, R132, R185) -/

theorem endStep (s : State) (r : OpRecord) (result : StoreResult) : KeepsBlank s (s.endStep r result) := by
  unfold State.endStep State.postStoreDone
  dsimp only
  split
  · exact beside rfl rfl
  · split
    · exact beside rfl rfl
    · exact (post ..).after rfl

theorem stepDone (s : State) : KeepsBlank s s.stepDone := by
  unfold State.stepDone
  split
  · exact refl s
  · next r _ => exact (endStep ..).after rfl

theorem tickStore (s : State) : KeepsBlank s s.tickStore := by
  unfold State.tickStore State.stepTimesOut
  split
  · exact refl s
  · split
    · split
      · exact refl s
      · next r _ => exact (endStep ..).after rfl
    · exact beside rfl rfl

/-! ### Time (R137, R138, log 3) -/

theorem voicesThrough (s : State) (last : Nat) : KeepsBlank s (s.voicesThrough last) := by
  rw [State.voicesThrough_eq]
  exact of_moves (.foldl _ .voiceFrame ..)

theorem mixFrame (s : State) : KeepsBlank s s.mixFrame := by
  refine ⟨fun _ => ?_⟩
  rw [State.out_mixFrame]
  exact Out.blankIfMuted_formed _

theorem muteAhead (s : State) : KeepsBlank s s.muteAhead := by
  unfold State.muteAhead
  split
  · exact ⟨fun _ => Out.blankIfMuted_stepMute _⟩
  · exact refl s

theorem countShare (s : State) : KeepsBlank s s.countShare := by
  unfold State.countShare
  split <;> exact beside rfl rfl

theorem lanesThrough (s : State) (last : Nat) : KeepsBlank s (s.lanesThrough last) := by
  have settled : Moves s s.settleTicked := by
    unfold State.settleTicked
    split
    · exact .refl s
    · exact .settle ..
  unfold State.lanesThrough
  split
  · exact refl s
  · exact of_moves (settled.trans (.tickInTurn ..))

theorem tickHoldoffs (s : State) : KeepsBlank s s.tickHoldoffs := beside rfl rfl

/-- A share that has been taken already, or is taken now. -/
theorem share (h : KeepsBlank s t) (taken : Bool) : KeepsBlank s (if taken = true then s else t) := by
  split
  · exact refl s
  · exact h

theorem tickRest (s : State) : KeepsBlank s s.tickRest :=
  (((countShare s).trans (lanesThrough ..)).trans (share (tickHoldoffs _) _)).trans (share (tickStore _) _)

theorem ite (h : KeepsBlank s t) (b : Bool) : KeepsBlank s (if b = true then t else s) := by
  split
  · exact h
  · exact refl s

theorem frame (s : State) : KeepsBlank s s.frame :=
  have ended (u : State) : KeepsBlank u u.endFrame := ((tickRest u).ite u.tickComes).trans (beside rfl rfl)
  ((((voicesThrough s 15).trans (mixFrame _)).trans (share (hostGapFrame _) _)).trans (share (trigGapFrame _) _)).trans (ended _)

/-- A command of log 3 that takes a share of the coming frame ahead, or has no effect. -/
theorem ahead (h : KeepsBlank s t) (b : Bool) (p : Progress) : KeepsBlank s (if b = true then { t with progress := p } else s) :=
  (h.trans (beside rfl rfl : KeepsBlank t { t with progress := p })).ite b

theorem laneAhead (s : State) (l : Fin 4) (b : Bool) : KeepsBlank s (if b = true then s.laneAhead l else s) :=
  ahead ((countShare s).trans (lanesThrough ..)) b _

/-! ### Signals and autostart entries (R84, R95) -/

theorem nextSignal (s : State) : KeepsBlank s s.nextSignal := by
  unfold State.nextSignal
  split
  · exact refl s
  · next rest _ => exact (of_moves (.takeSignal ..)).after rfl

theorem nextAutostart (s : State) : KeepsBlank s s.nextAutostart := by
  unfold State.nextAutostart
  split
  · exact refl s
  · next rest _ =>
    dsimp only
    split
    · exact (of_moves (.startLane ..)).after rfl
    · exact beside rfl rfl

/-! ### The resets and loading (R148, R169, R171, R182) -/

theorem replyEnds (s : State) : KeepsBlank s s.replyEnds := by
  unfold State.replyEnds
  split
  · exact beside rfl rfl
  · exact beside rfl rfl
  · exact of_cold rfl

theorem assertNrst (s : State) : KeepsBlank s s.assertNrst := by
  unfold State.assertNrst
  split
  · exact refl s
  · split
    · exact of_cold rfl
    · exact beside rfl rfl

theorem powerOn (s : State) : KeepsBlank s s.powerOn := by
  unfold State.powerOn
  split
  · exact refl s
  · exact of_cold rfl

theorem powerOff (s : State) : KeepsBlank s s.powerOff := by
  unfold State.powerOff
  split
  · exact of_cold rfl
  · exact refl s

/-- The loader hands OUT its settings as OUTPUT SET would (R182). -/
theorem load (s : State) : KeepsBlank s s.load := by
  rcases s.load_cases with same | ⟨-, -, loaded⟩
  · rw [same]
    exact refl s
  · rw [loaded]
    have handed : KeepsBlank s (s.handOver (loadSections s.mem)) := ⟨fun h => Out.blankIfMuted_take h _⟩
    exact handed.trans (beside (by simp [State.loadingComplete]) (by simp [State.loadingComplete]))

end KeepsBlank

/-! ### Every step -/

/-- Every command keeps the pins blank while the mute state is MUTED. -/
theorem exec_keepsBlank {c : Instr} {s t : State} (h : exec c s = .next t) : KeepsBlank s t := by
  cases hc : requestHead c with
  | some p =>
    obtain ⟨f, owner, he⟩ := exec_of_host (tag := p.1) (type := p.2) hc
    cases (he s).symm.trans h
    exact .request owner ..
  | none =>
    cases c with
    | hostFrameComplete => cases h; exact .hostByte ..
    | hostGapTimeout => cases h; exact (KeepsBlank.hostGapFrame s).ahead _ _
    | replySent => cases h; exact (KeepsBlank.replyEnds s).ite _
    | nrstAssert => cases h; exact .assertNrst s
    | nrstRelease => cases h; exact .beside rfl rfl
    | powerUp => cases h; exact .powerOn s
    | setupLoad => cases h; exact .load s
    | autostartEntry => cases h; exact .nextAutostart s
    | triggerFrameComplete => cases h; exact .trigByte ..
    | trigGapTimeout => cases h; exact (KeepsBlank.trigGapFrame s).ahead _ _
    | frame => cases h; exact (KeepsBlank.frame s).ite _
    | cutComplete v => cases h; exact (KeepsBlank.voicesThrough s v.val).ahead _ _
    | rampMoveInstant v => cases h; exact (KeepsBlank.voicesThrough s v.val).ahead _ _
    | muteRampEnd => cases h; exact .muteAhead s
    | msTick => cases h; exact (KeepsBlank.tickRest s).ahead _ _
    | waitTimeExpiry => cases h; exact .laneAhead ..
    | heldNoticeExpiry => cases h; exact .laneAhead ..
    | holdoffExpiry => cases h; exact ((KeepsBlank.countShare s).trans (.tickHoldoffs _)).ahead _ _
    | stepTimeout => cases h; exact ((KeepsBlank.countShare s).trans (.tickStore _)).ahead _ _
    | storeStepDone => cases h; exact .stepDone s
    | handleNotLive => cases h; exact .nextSignal s
    | retryRound => cases h; exact .of_moves (.retryRound s)
    | hostByteReceived => cases h; exact .hostLine ..
    | triggerByteReceived => cases h; exact .trigLine ..
    | powerLoss => cases h; exact .powerOff s
    | _ => cases hc

theorem step_keepsBlank {s t : State} (h : step s = .next t) : KeepsBlank s t := by
  rcases step_cases h with rfl | ⟨c, rest, h⟩
  · exact .of_moves (.goOn s)
  · exact (exec_keepsBlank h).after rfl

/-- Settles O43: the range of the values gives the range of the duties, the pins are read off their counts, and OUT alone reaches the mute
state, by steps that blank the pins where they bring MUTED. -/
theorem mixAndPins : Obligations.MixAndPins := by
  unfold Obligations.MixAndPins
  refine ⟨fun o full => ?_, fun f n last left right zone => ?_, fun s t law h => (step_keepsBlank h).blank law⟩
  · intro f l r clamp after
    have value (x : Int) : muted (limit x) o.mutePos = after x := by
      rw [limit_eq]
      rfl
    have formed : f.left = after (o.values o.bus).1 ∧ f.right = after (o.values o.bus).2 := ⟨value _, value _⟩
    obtain ⟨left, leftByte⟩ := duty_muted_limit (o.values o.bus).1 full
    obtain ⟨right, rightByte⟩ := duty_muted_limit (o.values o.bus).2 full
    refine ⟨fun stereo => ?_, fun mono => ?_, left, right, leftByte, rightByte, rfl, o.blankIfMuted_formed⟩
    · rw [Out.values_stereo _ stereo] at formed
      exact formed
    · rw [Out.values_mono _ mono] at formed
      exact formed
  · intro p
    cases blank : f.blank with
    | true =>
      have low : p = (false, false, false, false) := f.pins_blank blank n
      rw [low]
      exact ⟨fun _ => rfl, nofun, nofun, nofun⟩
    | false =>
      have run : p = _ := f.pins_run blank n
      rw [run]
      exact ⟨nofun, fun _ => ⟨plusHigh_iff .., minusHigh_iff last .., plusHigh_iff .., minusHigh_iff last ..⟩,
        not_plusHigh_and_minusHigh _ _ _, not_plusHigh_and_minusHigh _ _ _⟩

end Sys2Proof.Machine
end

section
/-! PROOFS. What a record posted to EVQ comes to, by the room in the queue, and the level of ATTN (R151 to R153). -/

namespace Sys2Proof.Machine

/-! ### Posting (R151, R152) -/

section

variable {s : State} (kind : EventKind) (subject : Nat) (generation reason : Byte) (value : BitVec 32)

theorem State.post_of_lt (room : s.evq.queue.length < 64) :
    s.post kind subject generation reason value = s.accept kind subject generation reason value := if_pos room

theorem State.post_of_le (full : 64 ≤ s.evq.queue.length) :
    s.post kind subject generation reason value = s.dropRecord := if_neg (Nat.not_lt.mpr full)

end

/-- A record dropped, in the words of `State.counted`: EVENTS_LOST is the tally 7, and raising it leaves the lost counter (R152). -/
theorem State.dropRecord_eq_counted (s : State) :
    s.dropRecord = { (s.counted 7) with evq := { (s.counted 7).evq with lost := min 255 (s.evq.lost + 1) } } := by
  unfold State.dropRecord
  rw [State.raise_eq_counted]
  rfl

/-! ### ATTN (R153) -/

theorem State.attnAsserted_iff (s : State) : s.attnAsserted = true ↔ s.evq.queue ≠ [] := by
  simp [State.attnAsserted]

theorem State.attnHigh_iff (s : State) : s.attnHigh = true ↔ s.evq.queue = [] := by
  rw [State.attnHigh, Bool.not_eq_true', ← Bool.not_eq_true, State.attnAsserted_iff, not_not]

/-! ### The statement -/

/-- Settles O53: by the room in the queue the record is accepted or dropped, and ATTN is read off the queue. -/
theorem postingAcceptsOrDrops : Obligations.PostingAcceptsOrDrops := by
  unfold Obligations.PostingAcceptsOrDrops
  intro kind subject generation reason value s
  refine ⟨fun room => ?accepted, fun full => ?dropped, s.attnHigh_iff⟩
  case accepted => exact State.post_of_lt kind subject generation reason value room
  case dropped => exact (State.post_of_le kind subject generation reason value full).trans s.dropRecord_eq_counted

end Sys2Proof.Machine
end

section
/-! PROOFS. The two receivers by their state: a start bit, the end of a byte that completes no frame, and the host frame's last byte
(R100, R101, R114, R161, R162, R164, R169). -/

namespace Sys2Proof.Machine

theorem RxState.ne_off_of_hunting {r : RxState} (h : r = .hunting) : r ≠ .off := by rw [h]; exact RxState.noConfusion

theorem RxState.ne_off_of_collecting {r : RxState} (h : r = .collecting) : r ≠ .off := by rw [h]; exact RxState.noConfusion

/-- Another byte than the sync, or one with a bad stop bit, is no good sync. -/
theorem not_goodSync {b sync : Byte} {good : Bool} (other : b ≠ sync ∨ good = false) : ¬(good = true ∧ b = sync) := by
  rintro ⟨high, same⟩
  rcases other with other | low
  · exact other same
  · exact Bool.noConfusion (high.symm.trans low)

/-! ### The receiver on HRX (R161, R162) -/

/-- The host receiver hunts, with no byte in reception. -/
def State.lnkHunting (s : State) : State :=
  { s with lnk := { s.lnk with rx := .hunting, bytes := [], frameLength := none, gap := 0, reception := .idle } }

/-- The host receiver collects, with these bytes held, this frame length and the gap count loaded. -/
def State.lnkKeeping (s : State) (bytes : List Byte) (n : Option Nat) : State :=
  { s with lnk := { s.lnk with rx := .collecting, bytes := bytes, frameLength := n, gap := 160, reception := .idle } }

/-- The host receiver's note of the byte in reception. -/
def State.lnkNoting (s : State) (r : Reception) : State := { s with lnk := { s.lnk with reception := r } }

/-- The second of two kept bytes gives the frame length. -/
theorem lengthAfter_pair (a b : Byte) (n : Option Nat) : lengthAfter [a, b] n = some (a.toNat * 256 + b.toNat) :=
  (if_pos rfl).trans (congrArg some (beNat_pair a b))

theorem lengthAfter_of_ne {held : List Byte} (h : held.length ≠ 2) (n : Option Nat) : lengthAfter held n = n := if_neg h

section

variable {s : State} {held : List Byte} {n : Nat}

theorem State.keepByte_unmeasured (h : lengthAfter held s.lnk.frameLength = none) :
    s.keepByte held = { s with lnk := s.lnk.collect held none } := by
  unfold State.keepByte
  rw [h]

theorem State.keepByte_outOfRange (h : lengthAfter held s.lnk.frameLength = some n) (out : n < 2 ∨ 302 < n) :
    s.keepByte held = s.discardFrame := by
  unfold State.keepByte
  rw [h]
  exact if_pos out

theorem State.keepByte_incomplete (h : lengthAfter held s.lnk.frameLength = some n) (low : 2 ≤ n) (high : n ≤ 302)
    (short : held.length < n + 4) : s.keepByte held = { s with lnk := s.lnk.collect held (some n) } := by
  unfold State.keepByte
  rw [h]
  dsimp only
  rw [if_neg (by omega), if_pos short]

theorem State.keepByte_complete (h : lengthAfter held s.lnk.frameLength = some n) (low : 2 ≤ n) (high : n ≤ 302)
    (whole : n + 4 ≤ held.length) : s.keepByte held = ({ s with lnk := s.lnk.hunt }).takeFrame held n := by
  unfold State.keepByte
  rw [h]
  dsimp only
  rw [if_neg (by omega), if_neg (by omega)]

end

section

variable {s : State} {b : Byte} {good : Bool} {n : Nat}

/-- A receiver that is on takes the end of a byte with its note cleared, unless a new rate dropped the byte (R161, R169). -/
theorem State.hostByte_on (taken : s.lnk.reception ≠ .dropped) (on : s.lnk.rx ≠ .off) :
    s.hostByte b good = (s.lnkNoting .idle).hostTake b good := by
  rw [State.hostByte_taken taken, State.noteLnk_on on]
  rfl

/-- The end of a byte that was in reception at a new rate, on a receiver that is on (R169). -/
theorem State.hostByte_stale (dropped : s.lnk.reception = .dropped) (on : s.lnk.rx ≠ .off) :
    s.hostByte b good = s.lnkNoting .idle := by
  rw [State.hostByte_dropped dropped, State.noteLnk_on on]
  rfl

/-! HUNTING. -/

theorem State.hostByte_sync (taken : s.lnk.reception ≠ .dropped) (rx : s.lnk.rx = .hunting) (sync : b = 0xB4) (high : good = true) :
    s.hostByte b good = s.lnkKeeping [] none := by
  rw [State.hostByte_on taken (RxState.ne_off_of_hunting rx), State.hostTake_hunting (by exact rx), if_pos ⟨high, sync⟩]
  rfl

theorem State.hostByte_noSync (taken : s.lnk.reception ≠ .dropped) (rx : s.lnk.rx = .hunting) (other : b ≠ 0xB4 ∨ good = false) :
    s.hostByte b good = s.lnkNoting .idle := by
  rw [State.hostByte_on taken (RxState.ne_off_of_hunting rx), State.hostTake_hunting (by exact rx), if_neg (not_goodSync other)]

/-! COLLECTING. -/

theorem State.hostByte_framing (taken : s.lnk.reception ≠ .dropped) (rx : s.lnk.rx = .collecting) (low : good = false) :
    s.hostByte b good = s.lnkHunting.counted 1 := by
  rw [State.hostByte_on taken (RxState.ne_off_of_collecting rx), State.hostTake_collecting (by exact rx),
    if_neg (by rw [low]; exact Bool.noConfusion)]
  rfl

theorem State.hostByte_kept (taken : s.lnk.reception ≠ .dropped) (rx : s.lnk.rx = .collecting) (high : good = true) :
    s.hostByte b good = (s.lnkNoting .idle).keepByte (s.lnk.bytes ++ [b]) := by
  rw [State.hostByte_on taken (RxState.ne_off_of_collecting rx), State.hostTake_collecting (by exact rx), if_pos high]
  rfl

theorem State.hostByte_lengthHigh (taken : s.lnk.reception ≠ .dropped) (rx : s.lnk.rx = .collecting) (high : good = true)
    (held : s.lnk.bytes = []) (unmeasured : s.lnk.frameLength = none) : s.hostByte b good = s.lnkKeeping [b] none := by
  rw [State.hostByte_kept taken rx high, held]
  exact State.keepByte_unmeasured ((lengthAfter_of_ne (held := [b]) (by simp) _).trans unmeasured)

theorem State.hostByte_lengthLow {a : Byte} (taken : s.lnk.reception ≠ .dropped) (rx : s.lnk.rx = .collecting) (high : good = true)
    (held : s.lnk.bytes = [a]) (low : 2 ≤ a.toNat * 256 + b.toNat) (most : a.toNat * 256 + b.toNat ≤ 302) :
    s.hostByte b good = s.lnkKeeping [a, b] (some (a.toNat * 256 + b.toNat)) := by
  rw [State.hostByte_kept taken rx high, held]
  exact State.keepByte_incomplete (lengthAfter_pair a b _) low most (by show 2 < _ + 4; omega)

theorem State.hostByte_badLength {a : Byte} (taken : s.lnk.reception ≠ .dropped) (rx : s.lnk.rx = .collecting) (high : good = true)
    (held : s.lnk.bytes = [a]) (out : a.toNat * 256 + b.toNat < 2 ∨ 302 < a.toNat * 256 + b.toNat) :
    s.hostByte b good = s.lnkHunting.counted 1 := by
  rw [State.hostByte_kept taken rx high, held]
  exact State.keepByte_outOfRange (lengthAfter_pair a b _) out

/-- With both length bytes held, the frame length stands. -/
theorem lengthAfter_measured {held : List Byte} (two : 2 ≤ held.length) (b : Byte) (n : Option Nat) :
    lengthAfter (held ++ [b]) n = n :=
  lengthAfter_of_ne (by rw [List.length_append, List.length_singleton]; omega) n

theorem State.hostByte_within (taken : s.lnk.reception ≠ .dropped) (rx : s.lnk.rx = .collecting) (high : good = true)
    (two : 2 ≤ s.lnk.bytes.length) (measured : s.lnk.frameLength = some n) (low : 2 ≤ n) (most : n ≤ 302)
    (short : s.lnk.bytes.length + 1 < n + 4) : s.hostByte b good = s.lnkKeeping (s.lnk.bytes ++ [b]) (some n) := by
  rw [State.hostByte_kept taken rx high]
  exact State.keepByte_incomplete ((lengthAfter_measured two b _).trans measured) low most
    (by rw [List.length_append]; exact short)

/-- The last byte of a frame: the receiver hunts, and the frame is taken (R161, R164). -/
theorem State.hostByte_last (taken : s.lnk.reception ≠ .dropped) (rx : s.lnk.rx = .collecting) (high : good = true)
    (measured : s.lnk.frameLength = some n) (low : 2 ≤ n) (most : n ≤ 302) (whole : s.lnk.bytes.length = n + 3) :
    s.hostByte b good = s.lnkHunting.takeFrame (s.lnk.bytes ++ [b]) n := by
  rw [State.hostByte_kept taken rx high]
  exact State.keepByte_complete ((lengthAfter_measured (by omega) b _).trans measured) low most
    (by rw [List.length_append, whole]; exact le_rfl)

end

/-! ### The receiver on TRX (R100, R101) -/

/-- The trigger receiver collects, with these bytes held and the gap count loaded. -/
def State.trgKeeping (s : State) (bytes : List Byte) : State :=
  { s with trg := { s.trg with rx := .collecting, bytes := bytes, gap := 96, reception := .idle } }

/-- The trigger receiver's note of the byte in reception. -/
def State.trgNoting (s : State) (r : Reception) : State := { s with trg := { s.trg with reception := r } }

section

variable {s : State} {b : Byte} {good : Bool}

theorem State.trigByte_on (taken : s.trg.reception ≠ .dropped) (on : s.trg.rx ≠ .off) :
    s.trigByte b good = (s.trgNoting .idle).trigTake b good := by
  rw [State.trigByte_taken taken, State.noteTrg_on on]
  rfl

theorem State.trigByte_stale (dropped : s.trg.reception = .dropped) (on : s.trg.rx ≠ .off) :
    s.trigByte b good = s.trgNoting .idle := by
  rw [State.trigByte_dropped dropped, State.noteTrg_on on]
  rfl

theorem State.trigByte_sync (taken : s.trg.reception ≠ .dropped) (rx : s.trg.rx = .hunting) (sync : b = 0xC3) (high : good = true) :
    s.trigByte b good = s.trgKeeping [] := by
  rw [State.trigByte_on taken (RxState.ne_off_of_hunting rx), State.trigTake_hunting (by exact rx), if_pos ⟨high, sync⟩]
  rfl

theorem State.trigByte_noSync (taken : s.trg.reception ≠ .dropped) (rx : s.trg.rx = .hunting) (other : b ≠ 0xC3 ∨ good = false) :
    s.trigByte b good = s.trgNoting .idle := by
  rw [State.trigByte_on taken (RxState.ne_off_of_hunting rx), State.trigTake_hunting (by exact rx), if_neg (not_goodSync other)]

theorem State.trigByte_framing (taken : s.trg.reception ≠ .dropped) (rx : s.trg.rx = .collecting) (low : good = false) :
    s.trigByte b good = s.frameTaken.counted 4 := by
  rw [State.trigByte_on taken (RxState.ne_off_of_collecting rx), State.trigTake_collecting (by exact rx),
    if_neg (by rw [low]; exact Bool.noConfusion)]
  rfl

theorem State.trigByte_within (taken : s.trg.reception ≠ .dropped) (rx : s.trg.rx = .collecting) (high : good = true)
    (short : s.trg.bytes.length < 5) : s.trigByte b good = s.trgKeeping (s.trg.bytes ++ [b]) := by
  rw [State.trigByte_on taken (RxState.ne_off_of_collecting rx), State.trigTake_collecting (by exact rx), if_pos high]
  exact if_pos (Nat.succ_lt_succ short)

end

/-! ### The statement -/

/-- Settles O6: each receiver by its state, one rule for each kind of byte. -/
theorem bytesByReceiverState : Obligations.BytesByReceiverState := by
  unfold Obligations.BytesByReceiverState
  refine ⟨fun b good s => ?host, fun b good s => ?trigger⟩
  case host =>
    intro run hunting keeps notes
    have taken {t : State} (h : s.hostByte b good = t) : run = .next t := congrArg Host.Outcome.next h
    refine ⟨fun off => ⟨taken (State.hostByte_off off b good), congrArg Host.Outcome.next (State.noteLnk_off off _)⟩,
      fun on => ⟨congrArg Host.Outcome.next (State.noteLnk_on on _), fun dropped =>
        ⟨taken (State.hostByte_stale dropped on), congrArg Host.Outcome.next (State.hostByte_stale dropped on)⟩⟩,
      fun whole => ⟨fun rx sync high => taken (State.hostByte_sync whole rx sync high),
        fun rx other => taken (State.hostByte_noSync whole rx other),
        fun rx low => taken (State.hostByte_framing whole rx low),
        fun rx high held unmeasured => taken (State.hostByte_lengthHigh whole rx high held unmeasured),
        fun a rx high held => ⟨fun range => taken (State.hostByte_lengthLow whole rx high held range.1 range.2),
          fun out => taken (State.hostByte_badLength whole rx high held out)⟩,
        fun n rx high two measured low most short =>
          taken (State.hostByte_within whole rx high two measured low most short)⟩⟩
  case trigger =>
    intro run hunting keeps notes
    have taken {t : State} (h : s.trigByte b good = t) : run = .next t := congrArg Host.Outcome.next h
    exact ⟨fun off => ⟨taken (State.trigByte_off off b good), congrArg Host.Outcome.next (State.noteTrg_off off _)⟩,
      fun on => ⟨congrArg Host.Outcome.next (State.noteTrg_on on _), fun dropped =>
        ⟨taken (State.trigByte_stale dropped on), congrArg Host.Outcome.next (State.trigByte_stale dropped on)⟩⟩,
      fun whole => ⟨fun rx sync high => taken (State.trigByte_sync whole rx sync high),
        fun rx other => taken (State.trigByte_noSync whole rx other),
        fun rx low => taken (State.trigByte_framing whole rx low),
        fun rx high short => taken (State.trigByte_within whole rx high short)⟩⟩

end Sys2Proof.Machine
end

section
/-! PROOFS. The request that a type and a payload spell is the request the command makes, and the frame that carries it: its checks and
its bytes (R161, R163, R164, R166, R172 to R176). -/

namespace Sys2Proof.Machine

/-! ### Fields read from their bytes (R172, R174 to R176) -/

/-- A two-byte field from its bytes. -/
theorem half_bytes (h : Half) : (h.extractLsb' 8 8 ++ h.extractLsb' 0 8 : Half) = h := by
  have bound := h.isLt
  apply BitVec.eq_of_toNat_eq
  rw [toNat_append_byte, BitVec.extractLsb'_toNat, BitVec.extractLsb'_toNat, Nat.shiftRight_eq_div_pow, Nat.shiftRight_eq_div_pow]
  omega

/-- A three-byte field from its bytes. -/
theorem addr_bytes (a : Addr) : ((a.extractLsb' 16 8 ++ a.extractLsb' 8 8 : BitVec 16) ++ a.extractLsb' 0 8 : Addr) = a := by
  have bound := a.isLt
  apply BitVec.eq_of_toNat_eq
  rw [toNat_append_byte, toNat_append_byte]
  simp only [BitVec.extractLsb'_toNat, Nat.shiftRight_eq_div_pow]
  omega

/-- A code from its bytes. -/
theorem eventValue_bytes (c : Code) :
    eventValue (c.extractLsb' 24 8) (c.extractLsb' 16 8) (c.extractLsb' 8 8) (c.extractLsb' 0 8) = c := by
  have bound := c.isLt
  apply BitVec.eq_of_toNat_eq
  unfold eventValue
  rw [toNat_append_byte, toNat_append_byte, toNat_append_byte]
  simp only [BitVec.extractLsb'_toNat, Nat.shiftRight_eq_div_pow]
  omega

/-- The bytes of a payload, by their place. -/
def payloadByte (payload : List Byte) (i : Nat) : Byte := payload.getD i 0

theorem half_payload {payload : List Byte} {i : Nat} {h : Half} (high : payloadByte payload i = h.extractLsb' 8 8)
    (low : payloadByte payload (i + 1) = h.extractLsb' 0 8) : half (payloadByte payload) i = h := by
  unfold half
  rw [high, low, half_bytes]

theorem addr_payload {payload : List Byte} {i : Nat} {a : Addr} (high : payloadByte payload i = a.extractLsb' 16 8)
    (mid : payloadByte payload (i + 1) = a.extractLsb' 8 8) (low : payloadByte payload (i + 2) = a.extractLsb' 0 8) :
    addr (payloadByte payload) i = a := by
  unfold addr
  rw [high, mid, low, addr_bytes]

theorem clipWire_payload (w : ClipWire) : clipWire (payloadByte (clipPayload w)) = w := by
  unfold clipWire
  rw [addr_payload (a := w.base) rfl rfl rfl, addr_payload (a := w.count) rfl rfl rfl, addr_payload (a := w.loopStart) rfl rfl rfl,
    addr_payload (a := w.loopEnd) rfl rfl rfl, half_payload (h := w.step) rfl rfl]
  rfl

theorem orderWire_payload (w : OrderWire) : orderWire (payloadByte (orderPayload w)) = w := by
  unfold orderWire
  rw [half_payload (h := w.step) rfl rfl, half_payload (h := w.level) rfl rfl, half_payload (h := w.rampTarget) rfl rfl]
  rfl

theorem bindingWire_payload (w : BindingWire) : bindingWire (payloadByte (bindingPayload w)) = w := by
  have code : eventValue (payloadByte (bindingPayload w) 2) (payloadByte (bindingPayload w) 3) (payloadByte (bindingPayload w) 4)
      (payloadByte (bindingPayload w) 5) = w.code := eventValue_bytes w.code
  unfold bindingWire
  rw [code]
  rfl

/-! ### Payloads with a list (R69, R104, R130, R174) -/

theorem length_codes (codes : List Code) : (codes.flatMap codeBytes).length = 4 * codes.length := by
  induction codes with
  | nil => rfl
  | cons c codes ih => rw [List.flatMap_cons, List.length_append, ih, List.length_cons, Nat.mul_succ, Nat.add_comm]; rfl

/-- The codes cut from their bytes. -/
theorem records_codes (codes : List Code) :
    (records 4 codes.length (codes.flatMap codeBytes)).map (fun c => BitVec.ofNat 32 (beNat c)) = codes := by
  induction codes with
  | nil => rfl
  | cons c codes ih =>
    rw [List.flatMap_cons]
    exact congrArg₂ List.cons (ofNat_beNat_codeBytes c) ih

theorem takeFilterSet_codes (count : Byte) (codes : List Code) :
    takeFilterSet (count :: codes.flatMap codeBytes) = doFilterSet count codes := by
  unfold takeFilterSet
  dsimp only
  rw [length_codes]
  by_cases same : codes.length = count.toNat
  · rw [if_pos (by rw [same]), ← same, records_codes]
  · rw [if_neg (by omega)]
    funext s
    unfold doFilterSet
    exact (if_pos same).symm

/-- A payload of another length than its type allows is refused before its owner would refuse it for the same (R166). -/
theorem sized_eq_of_badLength {k : Nat} {payload : List Byte} {f : (Nat → Byte) → Taking} {g : Taking}
    (good : payload.length = k → f (payloadByte payload) = g) (bad : payload.length ≠ k → g = badLength) :
    sized k payload f = g := by
  unfold sized
  split
  · next h => exact good h
  · next h => exact (bad h).symm

theorem doStoreProgram_badLength {data : List Byte} (h : data.length ≠ 256) (a : Addr) : doStoreProgram a data = badLength := by
  funext s
  unfold doStoreProgram
  exact if_pos h

theorem doCueWrite_badLength {block : List Byte} (h : block.length ≠ 16) (slot : Byte) : doCueWrite slot block = badLength := by
  funext s
  unfold doCueWrite
  exact if_pos h

theorem requestOf_storeProgram (a : Addr) (data : List Byte) : requestOf 0x19 (addrBytes a ++ data) = doStoreProgram a data := by
  show sized 259 (addrBytes a ++ data) (fun p => doStoreProgram (addr p 0) data) = _
  refine sized_eq_of_badLength (fun _ => ?_) fun other => doStoreProgram_badLength (fun same => other ?_) a
  · rw [addr_payload (payload := addrBytes a ++ data) (a := a) rfl rfl rfl]
  · rw [List.length_append, same]
    rfl

theorem requestOf_cueWrite (slot : Byte) (block : List Byte) : requestOf 0x20 (slot :: block) = doCueWrite slot block := by
  show sized 17 (slot :: block) (fun p => doCueWrite (p 0) block) = _
  exact sized_eq_of_badLength (fun _ => rfl)
    fun other => doCueWrite_badLength (fun same => other (by rw [List.length_cons, same])) slot

/-! ### The request that a command's payload spells (R166, R174) -/

/-- A request row is the request that its type and its payload spell (log 1). -/
theorem exec_eq_requestOf {c : Instr} {tag type : Byte} (h : requestHead c = some (tag, type)) (s : State) :
    exec c s = .next (s.request tag type (requestOf type (requestPayload c))) := by
  have spelled {f g : Taking} (same : g = f) :
      Host.Outcome.next (ρ := Refusal) (φ := Fault) (s.request tag type f) = .next (s.request tag type g) := by rw [same]
  cases c
  case clipDefine w => cases h; exact spelled (congrArg doClipDefine (clipWire_payload w))
  case storeRead a count =>
    cases h
    exact spelled (congrArg₂ doStoreRead (addr_payload (payload := addrBytes a ++ halfBytes count) (i := 0) rfl rfl rfl)
      (half_payload (payload := addrBytes a ++ halfBytes count) (i := 3) rfl rfl))
  case storeProgram a data => cases h; exact spelled (requestOf_storeProgram a data)
  case cueWrite slot block => cases h; exact spelled (requestOf_cueWrite slot block)
  case voicePlay w => cases h; exact spelled (congrArg doVoicePlay (orderWire_payload w))
  case voiceRamp voice g target rate scale mode notify =>
    cases h
    exact spelled (congrArg (fun x => doVoiceRamp voice g x rate scale mode notify)
      (half_payload (payload := [voice, g] ++ halfBytes target ++ [rate, scale, mode, notify]) (i := 2) rfl rfl))
  case filterSet count codes => cases h; exact spelled (takeFilterSet_codes count codes)
  case bindSet w => cases h; exact spelled (congrArg doBindSet (bindingWire_payload w))
  case outputSet mode left right mute zone =>
    cases h
    exact spelled (congrArg₂ (fun x y => doOutputSet mode x y mute zone)
      (half_payload (payload := mode :: halfBytes left ++ halfBytes right ++ [mute, zone]) (i := 1) rfl rfl)
      (half_payload (payload := mode :: halfBytes left ++ halfBytes right ++ [mute, zone]) (i := 3) rfl rfl))
  all_goals cases h
  all_goals exact spelled rfl

/-- A type that is no request type (R166). -/
theorem requestOf_unknown {type : Byte} (unknown : type.toNat ∉ requestTypes) (payload : List Byte) :
    requestOf type payload = fun s => refuse s .badType := by
  unfold requestOf
  split
  case h_36 => rfl
  all_goals next known => exact absurd (by rw [known]; decide) unknown

theorem lt_of_mem_requestTypes {n : Nat} (h : n ∈ requestTypes) : n < 0x80 := by
  revert n
  decide

/-- The head of a command names a request type. -/
theorem type_mem_requestTypes {c : Instr} {tag type : Byte} (h : requestHead c = some (tag, type)) : type.toNat ∈ requestTypes := by
  cases c
  all_goals cases h
  all_goals decide

/-! ### A complete frame (R163, R164, R173) -/

section

variable {s : State} {bytes : List Byte} {n : Nat}

theorem State.takeFrame_late (owed : s.lnk.replyOwed = true) : s.takeFrame bytes n = s.counted 2 := by
  unfold State.takeFrame
  dsimp only
  rw [if_pos owed]
  rfl

theorem State.takeFrame_badCrc (free : s.lnk.replyOwed = false)
    (bad : crc16 (bytes.take (n + 2)) ≠ BitVec.ofNat 16 (beNat (bytes.drop (n + 2)))) : s.takeFrame bytes n = s.counted 0 := by
  unfold State.takeFrame
  dsimp only
  rw [if_neg (by rw [free]; exact Bool.noConfusion), if_pos bad]
  rfl

/-- A frame whose CRC is good is the request its body spells, late or taken (R164). -/
theorem State.takeFrame_good (on : s.lnk.rx ≠ .off)
    (good : crc16 (bytes.take (n + 2)) = BitVec.ofNat 16 (beNat (bytes.drop (n + 2)))) :
    s.takeFrame bytes n = s.request ((bytes.take (n + 2)).getD 2 0) ((bytes.take (n + 2)).getD 3 0)
      (requestOf ((bytes.take (n + 2)).getD 3 0) ((bytes.take (n + 2)).drop 4)) := by
  unfold State.takeFrame State.request
  dsimp only
  rw [if_neg on, if_neg (not_not.2 good)]

/-- A complete frame of a type that is no request type (R165, R166). -/
theorem State.takeFrame_unknown (takes : s.takesRequests)
    (good : crc16 (bytes.take (n + 2)) = BitVec.ofNat 16 (beNat (bytes.drop (n + 2))))
    (unknown : ((bytes.take (n + 2)).getD 3 0).toNat ∉ requestTypes) :
    s.takeFrame bytes n
      = s.replying ((bytes.take (n + 2)).getD 2 0) (replyType ((bytes.take (n + 2)).getD 3 0)) .badType [] := by
  rw [State.takeFrame_good takes.1 good, requestOf_unknown unknown]
  exact State.request_unchanged takes _ _ _ (Answer.only .badType) rfl

end

/-- Settles O7: the last byte completes the frame, and the frame meets its checks in their order. -/
theorem completedFrameIsChecked : Obligations.CompletedFrameIsChecked := by
  unfold Obligations.CompletedFrameIsChecked
  intro last n s rx measured low most whole taken h body good
  have frame : exec (.hostFrameComplete last) s = .next (h.takeFrame (s.lnk.bytes ++ [last]) n) :=
    congrArg Host.Outcome.next (State.hostByte_last taken rx rfl measured low most whole)
  have body_eq : (s.lnk.bytes ++ [last]).take (n + 2) = body := List.take_append_of_le_length (by omega)
  obtain ⟨x, crc_byte⟩ : ∃ x, s.lnk.bytes.drop (n + 2) = [x] := List.length_eq_one_iff.1 (by rw [List.length_drop]; omega)
  have crc_bytes : (s.lnk.bytes ++ [last]).drop (n + 2) = [x, last] := by
    rw [List.drop_append_of_le_length (by omega), crc_byte]
    rfl
  have good_iff : good ↔ crc16 body = BitVec.ofNat 16 (beNat [x, last]) := by
    show halfBytes (crc16 body) = s.lnk.bytes.drop (n + 2) ++ [last] ↔ _
    rw [crc_byte]
    refine ⟨fun same => ?_, fun same => ?_⟩
    · rw [← ofNat_beNat_halfBytes (crc16 body), same]
      rfl
    · rw [same]
      exact halfBytes_ofNat_beNat x last
  have unknown (free : s.lnk.replyOwed = false) (right : good) (other : (body.getD 3 0).toNat ∉ requestTypes) :
      exec (.hostFrameComplete last) s
        = .next (h.replying (body.getD 2 0) (replyType (body.getD 3 0)) .badType []) := by
    have answered := State.takeFrame_unknown (s := h) (bytes := s.lnk.bytes ++ [last]) (n := n) ⟨RxState.noConfusion, free⟩
      (by rw [body_eq, crc_bytes]; exact good_iff.1 right) (by rw [body_eq]; exact other)
    rw [frame, answered, body_eq]
  refine ⟨fun owed => ?_, fun free wrong => ?_, fun free right other below => ?_, fun free right above => ?_⟩
  · rw [frame, State.takeFrame_late (s := h) owed]
  · rw [frame, State.takeFrame_badCrc (s := h) free (by rw [body_eq, crc_bytes]; exact mt good_iff.2 wrong)]
  · rw [unknown free right other, replyType_of_lt below]
  · have other : (body.getD 3 0).toNat ∉ requestTypes := fun known => (lt_of_mem_requestTypes known).not_ge above
    rw [unknown free right other, replyType, if_neg (not_lt.2 above)]

/-! ### The bytes of a frame, one by one (R161, R173) -/

/-- Commands after commands that come to a state. -/
theorem execAll_append {cs ds : List Instr} {s t : State} (first : execAll cs s = .next t) :
    execAll (cs ++ ds) s = execAll ds t := by
  induction cs generalizing s with
  | nil => cases first; rfl
  | cons c cs ih =>
    rw [List.cons_append, execAll]
    rw [execAll] at first
    cases step : exec c s with
    | next u => rw [step] at first; exact ih first
    | fault => rw [step] at first; cases first
    | refused => rw [step] at first; cases first

/-- The receiver takes good bytes one by one. -/
def State.hostBytes (s : State) (bytes : List Byte) : State := bytes.foldl (fun s b => s.hostByte b true) s

theorem State.hostBytes_append (s : State) (a b : List Byte) : s.hostBytes (a ++ b) = (s.hostBytes a).hostBytes b :=
  List.foldl_append ..

theorem execAll_hostByteReceived (bytes : List Byte) (s : State) :
    execAll (bytes.map fun b => Instr.hostByteReceived (.byte b) true) s = .next (s.hostBytes bytes) := by
  induction bytes generalizing s with
  | nil => rfl
  | cons b bytes ih => exact ih (s.hostByte b true)

/-- A frame's commands are the reception of its bytes: the row of the last one is that byte's reception too (log 2). -/
theorem execAll_frameCommands (tag type : Byte) (payload : List Byte) (s : State) :
    execAll (frameCommands tag type payload) s = .next (s.hostBytes (frameBytes tag type payload)) := by
  obtain ⟨front, last, split⟩ : ∃ front last, frameBytes tag type payload = front ++ [last] :=
    ⟨_, _, (List.dropLast_append_getLast (by unfold frameBytes; exact List.cons_ne_nil _ _)).symm⟩
  unfold frameCommands
  rw [split, List.dropLast_concat, List.getLast?_concat, execAll_append (execAll_hostByteReceived front s), State.hostBytes_append]
  rfl

/-- Bytes within a frame of known length are kept (R161). -/
theorem State.hostBytes_within {n : Nat} (low : 2 ≤ n) (most : n ≤ 302) (s : State) (held bytes : List Byte)
    (two : 2 ≤ held.length) (short : held.length + bytes.length < n + 4) :
    (s.lnkKeeping held (some n)).hostBytes bytes = s.lnkKeeping (held ++ bytes) (some n) := by
  induction bytes generalizing held with
  | nil => rw [List.append_nil]; rfl
  | cons b bytes ih =>
    rw [List.length_cons] at short
    have kept : (s.lnkKeeping held (some n)).hostByte b true = s.lnkKeeping (held ++ [b]) (some n) :=
      State.hostByte_within Reception.noConfusion rfl rfl two rfl low most
        (by show held.length + 1 < n + 4; omega)
    have rest := ih (held ++ [b]) (by rw [List.length_append]; omega)
      (by rw [List.length_append, List.length_singleton]; omega)
    rw [List.append_assoc] at rest
    unfold State.hostBytes at rest ⊢
    rw [List.foldl_cons, kept, rest]
    rfl

/-- The bytes of a frame whose length field is right: the frame is taken by a receiver that hunts again (R161, R164). -/
theorem State.hostBytes_frame {s : State} (rx : s.lnk.rx = .hunting) (taken : s.lnk.reception ≠ .dropped) {a b : Byte} {n : Nat}
    (length : a.toNat * 256 + b.toNat = n) (low : 2 ≤ n) (most : n ≤ 302) {rest : List Byte} (whole : rest.length = n + 2) :
    s.hostBytes (0xB4 :: a :: b :: rest) = s.lnkHunting.takeFrame (a :: b :: rest) n := by
  subst length
  obtain ⟨front, last, rfl⟩ : ∃ front last, rest = front ++ [last] :=
    ⟨_, _, (List.dropLast_append_getLast (by rintro rfl; cases whole)).symm⟩
  rw [List.length_append, List.length_singleton] at whole
  have sync : s.hostByte 0xB4 true = s.lnkKeeping [] none := State.hostByte_sync taken rx rfl rfl
  have first : (s.lnkKeeping [] none).hostByte a true = s.lnkKeeping [a] none :=
    State.hostByte_lengthHigh Reception.noConfusion rfl rfl rfl rfl
  have second : (s.lnkKeeping [a] none).hostByte b true = s.lnkKeeping [a, b] (some (a.toNat * 256 + b.toNat)) :=
    State.hostByte_lengthLow Reception.noConfusion rfl rfl rfl low most
  have within := State.hostBytes_within low most s [a, b] front le_rfl (by rw [List.length_cons, List.length_singleton]; omega)
  have complete : (s.lnkKeeping ([a, b] ++ front) (some (a.toNat * 256 + b.toNat))).hostByte last true
      = s.lnkHunting.takeFrame (a :: b :: (front ++ [last])) (a.toNat * 256 + b.toNat) :=
    State.hostByte_last Reception.noConfusion rfl rfl rfl low most
      (by show ([a, b] ++ front).length = _; rw [List.length_append, List.length_cons, List.length_singleton]; omega)
  calc s.hostBytes (0xB4 :: a :: b :: (front ++ [last]))
      = (((s.hostByte 0xB4 true).hostByte a true).hostByte b true).hostBytes (front ++ [last]) := rfl
    _ = (s.lnkKeeping ([a, b] ++ front) (some (a.toNat * 256 + b.toNat))).hostByte last true := by
      rw [sync, first, second, State.hostBytes_append, within]
      rfl
    _ = _ := complete

/-! ### The frame of a request (R163, R173) -/

/-- A frame body with its CRC is the request that its type and its payload spell. -/
theorem State.takeFrame_frameBody {s : State} (on : s.lnk.rx ≠ .off) (tag type : Byte) (payload : List Byte) :
    s.takeFrame (frameBody tag type payload ++ be16 (crc16 (frameBody tag type payload)).toNat) (payload.length + 2)
      = s.request tag type (requestOf type payload) := by
  have body_length : (frameBody tag type payload).length = payload.length + 2 + 2 := rfl
  have body := List.take_left' (l₂ := be16 (crc16 (frameBody tag type payload)).toNat) body_length
  have crc := List.drop_left' (l₂ := be16 (crc16 (frameBody tag type payload)).toNat) body_length
  rw [State.takeFrame_good on (by rw [body, crc, beNat_be16 (BitVec.isLt _), BitVec.ofNat_toNat, BitVec.setWidth_eq]), body]
  rfl

/-- A command that a frame can spell has a payload of at most 300 bytes (R173). -/
theorem length_requestPayload {c : Instr} {tag type : Byte} (h : requestHead c = some (tag, type)) (fits : c.wellFormed = true) :
    (requestPayload c).length ≤ 300 := by
  cases c
  case storeProgram a data =>
    show (addrBytes a ++ data).length ≤ 300
    rw [List.length_append]
    exact of_decide_eq_true fits
  case cueWrite slot block =>
    show block.length + 1 ≤ 300
    rw [Nat.add_comm]
    exact of_decide_eq_true fits
  case filterSet count codes =>
    show (codes.flatMap codeBytes).length + 1 ≤ 300
    rw [length_codes, Nat.add_comm]
    exact of_decide_eq_true fits
  all_goals cases h
  all_goals exact Nat.le_of_ble_eq_true rfl

/-- Settles O5: the receiver collects the frame's bytes and takes the frame, which is the request that the command makes. -/
theorem frameBytesSpellTheirRequest : Obligations.FrameBytesSpellTheirRequest := by
  unfold Obligations.FrameBytesSpellTheirRequest
  intro c tag type s head fits rx taken
  have short := length_requestPayload head fits
  generalize payload_eq : requestPayload c = payload at short
  have length : (byte1 ((payload.length + 2) / 256)).toNat * 256 + (byte1 (payload.length + 2)).toNat = payload.length + 2 := by
    rw [toNat_byte1, toNat_byte1]
    omega
  have collected := State.hostBytes_frame rx taken length (by omega) (by omega)
    (rest := [tag, type] ++ payload ++ be16 (crc16 (frameBody tag type payload)).toNat)
    (by rw [List.length_append, List.length_append]; show 2 + payload.length + 2 = _; omega)
  calc execAll (frameCommands tag type payload) s
      = .next (s.hostBytes (frameBytes tag type payload)) := execAll_frameCommands ..
    _ = .next (s.lnkHunting.takeFrame (frameBody tag type payload ++ be16 (crc16 (frameBody tag type payload)).toNat)
          (payload.length + 2)) := congrArg Host.Outcome.next collected
    _ = .next (s.lnkHunting.request tag type (requestOf type payload)) :=
      congrArg Host.Outcome.next (State.takeFrame_frameBody RxState.noConfusion tag type payload)
    _ = exec c s.lnkHunting := by rw [exec_eq_requestOf head, payload_eq]

end Sys2Proof.Machine
end

section
/-! PROOFS. IDENTIFY, LINK SET and the end of a reply (R165, R168, R169). -/

namespace Sys2Proof.Machine

/-- Settles O8: IDENTIFY reads the identity and leaves the part as it was. -/
theorem identifyAnswersTheIdentity : Obligations.IdentifyAnswersTheIdentity := by
  unfold Obligations.IdentifyAnswersTheIdentity
  intro tag s takes
  have answered := State.request_unchanged takes tag 0x01 doIdentify ⟨.ok, identityBytes⟩ rfl
  have identity : identityBytes = [0x3A, 0x71, 0x0C, 0x16, 1, 16, 64, 1, 0, 4, 32, 64] := by decide
  rw [replyType_of_lt (by decide), identity] at answered
  exact congrArg Host.Outcome.next answered

/-! ### LINK SET (R169) -/

theorem LinkRate.ofCode_none {b : Byte} (h : 3 < b.toNat) : LinkRate.ofCode b = none := by
  unfold LinkRate.ofCode
  split
  case h_5 => rfl
  all_goals omega

section

variable {s : State} {tag rate : Byte}

theorem exec_linkSet_bad (takes : s.takesRequests) (h : 3 < rate.toNat) :
    exec (.linkSet tag rate) s = .next (s.replying tag 0x83 .badField [0]) := by
  have refused : doLinkSet rate s.oweReply = badField s.oweReply 0 := by
    unfold doLinkSet
    rw [LinkRate.ofCode_none h]
  exact State.request_badField takes (type := 0x03) (by decide) tag refused

/-- LINK SET answers, and notes the rate that is to come. -/
theorem exec_linkSet (takes : s.takesRequests) {r : LinkRate} (h : LinkRate.ofCode rate = some r) :
    exec (.linkSet tag rate) s
      = .next { s with lnk := { s.lnk with replyOwed := true, reply := some ⟨tag, 0x83, .ok, []⟩, after := .newRate r } } := by
  have noted : doLinkSet rate s.oweReply
      = (Answer.ok, State.oweReply { s with lnk := { s.lnk with after := .newRate r } }) := by
    unfold doLinkSet
    rw [h]
    rfl
  exact State.request_answers takes (type := 0x03) (by decide) tag noted

end

/-! ### The end of a reply (R165, R169) -/

section

variable {s : State}

theorem exec_replySent_idle (free : s.lnk.replyOwed = false) : exec .replySent s = .next s :=
  congrArg Host.Outcome.next (if_neg (by rw [free]; exact Bool.noConfusion))

theorem exec_replySent_owed (owed : s.lnk.replyOwed = true) : exec .replySent s = .next s.replyEnds :=
  congrArg Host.Outcome.next (if_pos owed)

theorem State.replyEnds_nothing (after : s.lnk.after = .nothing) :
    s.replyEnds = { s with lnk := { s.lnk with replyOwed := false, reply := none } } := by
  unfold State.replyEnds
  rw [after]
  dsimp only
  rw [after]

/-- The end of a reply behind which a rate waits: LNK takes the rate (R169). -/
theorem State.replyEnds_newRate {r : LinkRate} (after : s.lnk.after = .newRate r) :
    s.replyEnds = { s with lnk :=
      ({ s.lnk with replyOwed := false, reply := none, after := .nothing } : Lnk).takeRate r } := by
  unfold State.replyEnds
  rw [after]

end

/-- A rate that differs restarts the receiver and drops a byte in reception (R169). -/
theorem Lnk.takeRate_eq (l : Lnk) (r : LinkRate) :
    l.takeRate r = if r = l.rate then l
      else { l with rate := r, rx := .hunting, bytes := [], frameLength := none, gap := 0
                    reception := if l.reception = .idle then .idle else .dropped } := by
  unfold Lnk.takeRate
  rw [Reception.drop_eq]
  rfl

/-- Settles O9: LINK SET notes the rate, and the end of its reply takes it. -/
theorem linkSetTakesTheRateAfterItsReply : Obligations.LinkSetTakesTheRateAfterItsReply := by
  unfold Obligations.LinkSetTakesTheRateAfterItsReply
  refine ⟨fun tag rate s takes => ⟨exec_linkSet_bad takes, fun r hr => ⟨_, exec_linkSet takes ?code, rfl, ?sent⟩⟩,
    fun s => ⟨fun owed after => ?other, exec_replySent_idle⟩⟩
  case code => rcases hr with ⟨rfl, rfl⟩ | ⟨rfl, rfl⟩ | ⟨rfl, rfl⟩ | ⟨rfl, rfl⟩ <;> rfl
  case sent => rw [exec_replySent_owed rfl, State.replyEnds_newRate rfl, Lnk.takeRate_eq]
  case other => rw [exec_replySent_owed owed, State.replyEnds_nothing after]

end Sys2Proof.Machine
end

section
/-! PROOFS. What the owner of a request answers: it acts, or it refuses and leaves the part as it was; and the reply by the state of the
link (R41 to R47, R161, R164 to R167). -/

namespace Sys2Proof.Machine

/-! ### The group rule before an order that finds no voice (R43, R44, R47) -/

/-- The voice can take an order without a steal (R44). -/
def Voice.Open (x : Voice) : Prop := x.isFree = true ∨ x.takesSuccessor = true

/-- Some voice can take an order without a steal. -/
def State.HasOpen (s : State) : Prop := ∃ v, (s.voice v).Open

section

variable {s t : State} {v : Fin 16}

theorem State.hasOpen_of_set {x : Voice} (voices : t.voices = s.voices.set v x) (h : x.Open) : t.HasOpen := by
  refine ⟨v, ?_⟩
  unfold State.voice
  rw [voices, Table.get_set_self]
  exact h

/-- Where the rule acts on a voice, the voice is left FREE or with room for a successor. -/
theorem State.groupAt_opens (g : Fin 8) (s : State) (v : Fin 16) :
    State.groupAt g s v = s ∨ (State.groupAt g s v).HasOpen := by
  have passed (unmoved : State.groupAt g s v = s) : State.groupAt g s v = s ∨ (State.groupAt g s v).HasOpen := .inl unmoved
  have cut {y : Sounding} (hb : (s.voice v).body = .playing y ∨ (s.voice v).body = .releasing y) (hy : y.group = g) :
      (State.groupAt g s v).HasOpen := by
    rw [State.groupAt_cuts hb hy, State.stopStart_cuts hb]
    exact State.hasOpen_of_set rfl (.inr rfl)
  cases hb : (s.voice v).body with
  | free => exact passed (by unfold State.groupAt; rw [hb])
  | playing y =>
    by_cases hy : y.group = g
    · exact .inr (cut (.inl hb) hy)
    · exact passed (by unfold State.groupAt; rw [hb]; exact if_neg hy)
  | releasing y =>
    by_cases hy : y.group = g
    · exact .inr (cut (.inr hb) hy)
    · exact passed (by unfold State.groupAt; rw [hb]; exact if_neg hy)
  | held y w =>
    by_cases hy : y.group = g
    · have stands : (s.voice v).stands.isSome = true := by unfold Voice.stands; rw [hb]; rfl
      refine .inr ?_
      rw [State.groupAt_ends hb hy, State.stopStart_ends hb, State.endFree_eq stands]
      exact State.hasOpen_of_set rfl (.inl rfl)
    · exact passed (by unfold State.groupAt; rw [hb]; exact if_neg hy)
  | cutting y c z =>
    cases z with
    | none => exact passed (by unfold State.groupAt; rw [hb])
    | some p =>
      by_cases hp : p.order.group = g
      · refine .inr ?_
        rw [State.groupAt_cancels hb hp, State.cancelSuccessor_eq hb]
        exact State.hasOpen_of_set rfl (.inr rfl)
      · exact passed (by unfold State.groupAt; rw [hb]; exact if_neg hp)

/-- A group rule that changes anything leaves a voice that can take the order (R43). -/
theorem State.groupRule_opens (s : State) (g : Fin 8) : s.groupRule g = s ∨ (s.groupRule g).HasOpen := by
  unfold State.groupRule
  split
  · exact .inl rfl
  · generalize allVoices = l
    induction l generalizing s with
    | nil => exact .inl rfl
    | cons v l ih =>
      rw [List.foldl_cons]
      rcases State.groupAt_opens g s v with same | opened
      · rw [same]
        exact ih s
      · rcases ih (State.groupAt g s v) with still | opened'
        · rw [still]
          exact .inr opened
        · exact .inr opened'

end

/-- What an order comes to: a start that sounds or waits behind a cut, or a failure that changes nothing (R41). -/
inductive OrderTaken (s : State) : OrderAnswer × State → Prop
  | sounding (h : Handle) (t : State) : OrderTaken s (.sounding h, t)
  | awaiting (h : Handle) (t : State) : OrderTaken s (.awaiting h, t)
  | failed {st : Status} (noField : st ≠ .badField) : OrderTaken s (.failed st, s)
  | badReverse : OrderTaken s (.badReverse, s)

namespace OrderTaken

variable (s : State) (o : StartOrder) (w : Owner)

theorem steal (u : State) (v : Fin 16) (r : ClipRecord) : OrderTaken u (s.steal v o w r) := by
  unfold State.steal
  dsimp only
  split
  · exact .sounding ..
  · exact .awaiting ..

/-- The choice of a voice fails only where no voice was open, and changes nothing then (R47). -/
theorem chooseVoice {u : State} (ruled : s = u ∨ s.HasOpen) (r : ClipRecord) : OrderTaken u (s.chooseVoice o w r) := by
  unfold State.chooseVoice
  split
  · exact .sounding ..
  next none_free =>
  split
  · exact .awaiting ..
  next none_cutting =>
  split
  · exact steal ..
  · rcases ruled with rfl | ⟨v, free | cutting⟩
    · exact .failed Status.noConfusion
    · exact absurd free (List.find?_eq_none.1 none_free v (mem_allVoices v))
    · exact absurd cutting (List.find?_eq_none.1 none_cutting v (mem_allVoices v))

/-- The answer of a check that fails (R42). -/
theorem clipChecks {a : OrderAnswer} (h : s.clipChecks o w = .error a) : OrderTaken s (a, s) := by
  unfold State.clipChecks at h
  split at h
  · cases h; exact .failed Status.noConfusion
  split at h
  · cases h; exact .badReverse
  split at h
  · cases h; exact .failed Status.noConfusion
  split at h
  · cases h; exact .failed Status.noConfusion
  · cases h

theorem tryOrder : OrderTaken s (s.tryOrder o w) := by
  unfold State.tryOrder
  split
  · next failed => exact clipChecks s o w failed
  · exact chooseVoice _ _ _ (s.groupRule_opens o.group) _

end OrderTaken

/-! ### What an owner answers (R166) -/

/-- An owner acts and leaves a reply owed as it was, or refuses: for a field with the state `s` as it was, else with the state `u` that
a refusal leaves. -/
inductive Answered (s u : State) : Answer × State → Prop
  | acts {a : Answer} {t : State} (status : a.status = .ok ∨ a.status = .accepted) (owed : t.lnk.replyOwed = s.lnk.replyOwed) :
      Answered s u (a, t)
  | refuses {st : Status} (noField : st ≠ .badField) : Answered s u (Answer.only st, u)
  | badField (i : Nat) : Answered s u (Answer.badField i, s)

/-- An owner that acts or leaves every state as it was. -/
def Answers (f : Taking) : Prop := ∀ s, Answered s s (f s)

namespace Answered

variable {s u t : State}

theorem owed {p : Answer × State} (h : Answered s u p) (beside : u.lnk.replyOwed = s.lnk.replyOwed) :
    p.2.lnk.replyOwed = s.lnk.replyOwed := by
  cases h with
  | acts _ owed => exact owed
  | refuses => exact beside
  | badField => rfl

theorem ok (data : List Byte) (owed : t.lnk.replyOwed = s.lnk.replyOwed) : Answered s u (⟨.ok, data⟩, t) := acts (.inl rfl) owed

/-- The voices, the allocator and the lanes act beside the link. -/
theorem ok_of_moves (data : List Byte) (h : Moves s t) : Answered s u (⟨.ok, data⟩, t) := ok data (by rw [h.untouched.lnk])

theorem busy : Answered s s (refuse s .busy) := refuses Status.noConfusion

/-- An operation that moves the state and answers OK, or answers another status and does nothing. -/
theorem of_status {p : Status × State} (moves : Moves s p.2) (h : p.1 = .ok ∨ p.1 ≠ .badField ∧ p.2 = s) :
    Answered s s (Answer.only p.1, p.2) := by
  rcases h with acted | ⟨noField, same⟩
  · exact acts (.inl acted) (by rw [moves.untouched.lnk])
  · rw [same]
    exact refuses noField

/-! ### The operations on a handle and on a lane (R15 to R20, R86, R87) -/

section

variable (s) (h : Handle) (l : Fin 4)

theorem opRamp (r : RampSpec) : Answered s s (Answer.only (s.opRamp h r).1, (s.opRamp h r).2) := by
  refine of_status (.opRamp s h r) ?_
  unfold State.opRamp
  split
  · exact .inr ⟨Status.noConfusion, rfl⟩
  · exact .inr ⟨Status.noConfusion, rfl⟩
  · exact .inr ⟨Status.noConfusion, rfl⟩
  · split
    · exact .inl rfl
    · exact .inl rfl
    · exact .inr ⟨Status.noConfusion, rfl⟩

theorem opRelease : Answered s s (Answer.only (s.opRelease h).1, (s.opRelease h).2) := by
  refine of_status (.opRelease s h) ?_
  unfold State.opRelease
  split
  · exact .inr ⟨Status.noConfusion, rfl⟩
  · exact .inr ⟨Status.noConfusion, rfl⟩
  · exact .inl rfl
  · split
    · split <;> exact .inl rfl
    · split <;> exact .inl rfl
    · exact .inl rfl

theorem opStop : Answered s s (Answer.only (s.opStop h).1, (s.opStop h).2) := by
  refine of_status (.opStop s h) ?_
  unfold State.opStop
  split
  · exact .inr ⟨Status.noConfusion, rfl⟩
  all_goals exact .inl rfl

theorem opHold : Answered s s (Answer.only (s.opHold h).1, (s.opHold h).2) := by
  refine of_status (.opHold s h) ?_
  unfold State.opHold
  split
  · exact .inr ⟨Status.noConfusion, rfl⟩
  · exact .inr ⟨Status.noConfusion, rfl⟩
  · exact .inr ⟨Status.noConfusion, rfl⟩
  · split <;> exact .inl rfl

theorem opContinue : Answered s s (Answer.only (s.opContinue h).1, (s.opContinue h).2) := by
  refine of_status (.opContinue s h) ?_
  unfold State.opContinue
  split
  · exact .inr ⟨Status.noConfusion, rfl⟩
  · exact .inr ⟨Status.noConfusion, rfl⟩
  · exact .inr ⟨Status.noConfusion, rfl⟩
  · split
    · exact .inl rfl
    · exact .inl rfl
    · exact .inr ⟨Status.noConfusion, rfl⟩

theorem pauseRequest : Answered s s (Answer.only (s.pauseRequest l).1, (s.pauseRequest l).2) := by
  refine of_status (.pauseRequest s l) ?_
  unfold State.pauseRequest
  dsimp only
  split
  · exact .inl rfl
  · exact .inl rfl
  · split <;> exact .inl rfl
  · exact .inl rfl
  · exact .inr ⟨Status.noConfusion, rfl⟩
  · exact .inr ⟨Status.noConfusion, rfl⟩

theorem resumeLane : Answered s s (Answer.only (s.resumeLane l).1, (s.resumeLane l).2) := by
  refine of_status (.resumeLane s l) ?_
  unfold State.resumeLane
  split
  · dsimp only
    split <;> exact .inl rfl
  · exact .inr ⟨Status.noConfusion, rfl⟩

end

/-- VOICE PLAY: a failed order counts in START_FAILS, and a refusal for a field does not (R40 to R42, R47). -/
theorem doVoicePlay (w : OrderWire) (s : State) : Answered s (s.raise .startFails) (doVoicePlay w s) := by
  unfold Machine.doVoicePlay
  split
  · exact badField _
  · next o _ =>
    have taken := OrderTaken.tryOrder s o .link
    have moves := Moves.takeOrder s o .link
    unfold State.takeOrder at moves ⊢
    generalize s.tryOrder o .link = p at taken moves
    cases taken with
    | sounding => exact ok_of_moves _ moves
    | awaiting => exact ok_of_moves _ moves
    | failed noField => exact refuses noField
    | badReverse => exact badField 11

end Answered

/-! ### The owners (R166, R174) -/

namespace Answers

theorem refused {st : Status} (noField : st ≠ .badField) : Answers fun s => refuse s st := fun _ => .refuses noField

theorem sized (n : Nat) (payload : List Byte) {f : (Nat → Byte) → Taking} (owner : ∀ p, Answers (f p)) :
    Answers (sized n payload f) := by
  unfold Machine.sized
  split
  · exact owner _
  · exact refused Status.noConfusion

theorem onLane (lane : Byte) {f : Fin 4 → Taking} (owner : ∀ l, Answers (f l)) : Answers (onLane lane f) := by
  intro s
  unfold Machine.onLane
  split
  · exact .badField 0
  · exact owner _ s

theorem onVoice (voice g : Byte) {f : State → Handle → Status × State}
    (owner : ∀ s h, Answered s s (Answer.only (f s h).1, (f s h).2)) : Answers (onVoice voice g f) := by
  intro s
  unfold Machine.onVoice
  split
  · exact .badField 0
  · exact owner ..

theorem takeReset (kind : Byte) : Answers (takeReset kind) := by
  unfold Machine.takeReset
  split
  · exact fun _ => .ok _ rfl
  · exact fun _ => .ok _ rfl
  · exact fun _ => .badField 0

theorem doLinkSet (rate : Byte) : Answers (doLinkSet rate) := by
  intro s
  unfold Machine.doLinkSet
  split
  · exact .badField 0
  · exact .ok _ rfl

theorem doClipDefine (w : ClipWire) : Answers (doClipDefine w) := by
  intro s
  unfold Machine.doClipDefine
  split
  · exact .badField 0
  split
  · exact .badField _
  unfold State.defineClip
  split
  · exact .busy
  split
  · exact .refuses Status.noConfusion
  split
  · exact .refuses Status.noConfusion
  · exact .ok _ rfl

theorem doClipDelete (clip : Byte) : Answers (doClipDelete clip) := by
  intro s
  unfold Machine.doClipDelete
  split
  · exact .badField 0
  split
  · exact .busy
  split
  · exact .refuses Status.noConfusion
  · exact .ok _ rfl

theorem doClipRead (clip : Byte) : Answers (doClipRead clip) := by
  intro s
  unfold Machine.doClipRead
  split
  · exact .badField 0
  · exact .ok _ rfl

theorem doStoreRead (a : Addr) (count : Half) : Answers (doStoreRead a count) := by
  intro s
  unfold Machine.doStoreRead
  split
  · exact .badField 0
  split
  · exact .badField 3
  split
  · exact .busy
  · exact .ok _ rfl

theorem beginOn (sector : Fin 128) (r : OpRecord) (s : State) : Answered s s (s.beginOn sector r) := by
  unfold State.beginOn
  split
  · exact .busy
  split
  · exact .refuses Status.noConfusion
  split
  · exact .refuses Status.noConfusion
  · exact .acts (.inr rfl) rfl

theorem doStoreProgram (a : Addr) (data : List Byte) : Answers (doStoreProgram a data) := by
  intro s
  unfold Machine.doStoreProgram
  split
  · exact .refuses Status.noConfusion
  split
  · exact .badField 0
  split
  · exact .badField 0
  · exact beginOn _ _ s

theorem doStoreErase (sector : Byte) : Answers (doStoreErase sector) := by
  intro s
  unfold Machine.doStoreErase
  split
  · exact .badField 0
  · exact beginOn _ _ s

theorem doSetupCommit : Answers doSetupCommit := by
  intro s
  unfold Machine.doSetupCommit
  split
  · exact .busy
  · exact .acts (.inr rfl) rfl

theorem doCueWrite (slot : Byte) (block : List Byte) : Answers (doCueWrite slot block) := by
  intro s
  unfold Machine.doCueWrite
  split
  · exact .refuses Status.noConfusion
  split
  · exact .badField _
  next b _ =>
  unfold State.writeCue
  split
  · exact .busy
  split
  · exact .refuses Status.noConfusion
  · exact .ok _ (congrArg Lnk.replyOwed (Moves.wakeStarved (s.setCue slot.toFin (some b)) slot.toFin).untouched.lnk)

theorem doCueClear (first last : Byte) : Answers (doCueClear first last) := by
  intro s
  unfold Machine.doCueClear
  split
  · exact .badField 1
  split
  · exact .busy
  split
  · exact .refuses Status.noConfusion
  · exact .ok _ rfl

theorem doCueRead (first count : Byte) : Answers (doCueRead first count) := by
  intro s
  unfold Machine.doCueRead
  split
  · exact .badField 1
  · exact .ok _ rfl

theorem doLaneStart (lane slot clear : Byte) : Answers (doLaneStart lane slot clear) :=
  onLane lane fun l s => by
    unfold State.laneStartAt
    split
    · exact .ok_of_moves _ (.startLane ..)
    · exact .ok_of_moves _ (.startLane ..)
    all_goals exact .busy

theorem doLaneAbort (lane voices : Byte) : Answers (doLaneAbort lane voices) :=
  onLane lane fun l s => by
    split
    · exact .badField 1
    · exact .ok_of_moves _ (.abortLane ..)

theorem doAutostartSet (lane enabled slot : Byte) : Answers (doAutostartSet lane enabled slot) :=
  onLane lane fun l s => by
    split
    · exact .busy
    · exact .ok _ rfl

theorem doVoiceRamp (voice g : Byte) (target : Half) (rate scale mode notify : Byte) :
    Answers (doVoiceRamp voice g target rate scale mode notify) := by
  intro s
  unfold Machine.doVoiceRamp
  split
  · exact .badField 0
  split
  · exact .badField _
  · exact .opRamp ..

theorem doVoiceStatus (voice : Byte) : Answers (doVoiceStatus voice) := by
  intro s
  unfold Machine.doVoiceStatus
  split
  · exact .badField 0
  · exact .ok _ rfl

theorem doFilterSet (count : Byte) (codes : List Code) : Answers (doFilterSet count codes) := by
  intro s
  unfold Machine.doFilterSet
  split
  · exact .refuses Status.noConfusion
  split
  · exact .badField 0
  split
  · exact .busy
  · exact .ok _ rfl

theorem takeFilterSet (payload : List Byte) : Answers (takeFilterSet payload) := by
  unfold Machine.takeFilterSet
  split
  · exact refused Status.noConfusion
  split
  · exact doFilterSet _ _
  · exact refused Status.noConfusion

theorem doBindSet (w : BindingWire) : Answers (doBindSet w) := by
  intro s
  unfold Machine.doBindSet
  split
  · exact .badField 0
  split
  · exact .badField _
  split
  · exact .busy
  · exact .ok _ rfl

theorem doBindClear (binding : Byte) : Answers (doBindClear binding) := by
  intro s
  unfold Machine.doBindClear
  split
  · exact .badField 0
  split
  · exact .busy
  · exact .ok _ rfl

theorem doBindRead (binding : Byte) : Answers (doBindRead binding) := by
  intro s
  unfold Machine.doBindRead
  split
  · exact .badField 0
  · exact .ok _ rfl

theorem doTriggerSet (rate report : Byte) : Answers (doTriggerSet rate report) := by
  intro s
  unfold Machine.doTriggerSet
  split
  · exact .badField _
  split
  · exact .busy
  · exact .ok _ rfl

theorem doOutputSet (mode : Byte) (left right : Half) (mute zone : Byte) : Answers (doOutputSet mode left right mute zone) := by
  intro s
  unfold Machine.doOutputSet
  split
  · exact .badField _
  split
  · exact .busy
  · exact .ok _ rfl

theorem doEventRead (count : Byte) : Answers (doEventRead count) := by
  intro s
  have notices : Moves s s.releaseNotices := .foldl State.postNotice .postNotice ..
  unfold Machine.doEventRead
  split
  · exact .badField 0
  · exact .ok _ (congrArg Lnk.replyOwed notices.untouched.lnk)

theorem doTallyRead (choice : Byte) : Answers (doTallyRead choice) := by
  intro s
  unfold Machine.doTallyRead
  split
  · exact .badField 0
  · exact .ok _ rfl

/-- Whatever a type other than VOICE PLAY's and a payload spell (R166, R174). -/
theorem requestOf {type : Byte} (other : type ≠ 0x30) (payload : List Byte) : Answers (requestOf type payload) := by
  unfold Machine.requestOf
  split
  · exact sized _ _ fun _ _ => .ok _ rfl
  · exact sized _ _ fun p => takeReset (p 0)
  · exact sized _ _ fun p => doLinkSet (p 0)
  · exact sized _ _ fun p => doClipDefine (clipWire p)
  · exact sized _ _ fun p => doClipDelete (p 0)
  · exact sized _ _ fun p => doClipRead (p 0)
  · exact sized _ _ fun p => doStoreRead (addr p 0) (half p 3)
  · exact sized _ _ fun p => doStoreProgram (addr p 0) (payload.drop 3)
  · exact sized _ _ fun p => doStoreErase (p 0)
  · exact sized _ _ fun _ _ => .ok _ rfl
  · exact sized _ _ fun _ => doSetupCommit
  · exact sized _ _ fun p => doCueWrite (p 0) (payload.drop 1)
  · exact sized _ _ fun p => doCueClear (p 0) (p 1)
  · exact sized _ _ fun p => doCueRead (p 0) (p 1)
  · exact sized _ _ fun p => doLaneStart (p 0) (p 1) (p 2)
  · exact sized _ _ fun p => onLane (p 0) fun l s => .pauseRequest s l
  · exact sized _ _ fun p => onLane (p 0) fun l s => .resumeLane s l
  · exact sized _ _ fun p => doLaneAbort (p 0) (p 1)
  · exact sized _ _ fun p => onLane (p 0) fun _ _ => .ok _ rfl
  · exact sized _ _ fun p => doAutostartSet (p 0) (p 1) (p 2)
  · next play => exact absurd (BitVec.eq_of_toNat_eq play) other
  · exact sized _ _ fun p => doVoiceRamp (p 0) (p 1) (half p 2) (p 4) (p 5) (p 6) (p 7)
  · exact sized _ _ fun p => onVoice (p 0) (p 1) .opRelease
  · exact sized _ _ fun p => onVoice (p 0) (p 1) .opStop
  · exact sized _ _ fun p => onVoice (p 0) (p 1) .opHold
  · exact sized _ _ fun p => onVoice (p 0) (p 1) .opContinue
  · exact sized _ _ fun p => doVoiceStatus (p 0)
  · exact takeFilterSet payload
  · exact sized _ _ fun p => doBindSet (bindingWire p)
  · exact sized _ _ fun p => doBindClear (p 0)
  · exact sized _ _ fun p => doBindRead (p 0)
  · exact sized _ _ fun p => doTriggerSet (p 0) (p 1)
  · exact sized _ _ fun p => doOutputSet (p 0) (half p 1) (half p 3) (p 5) (p 6)
  · exact sized _ _ fun p => doEventRead (p 0)
  · exact sized _ _ fun p => doTallyRead (p 0)
  · exact refused Status.noConfusion

end Answers

/-! ### The commands (R164 to R166) -/

/-- The state that a refusal for no field leaves: a failed VOICE PLAY is counted (R47). -/
def State.refusing (s : State) (type : Byte) : State := if type = 0x30 then s.counted 9 else s

section

variable {c : Instr} {tag type : Byte}

/-- VOICE PLAY is the one command of its type. -/
theorem voicePlay_of_requestHead (h : requestHead c = some (tag, 0x30)) : ∃ w, c = .voicePlay tag w := by
  cases c
  case voicePlay w => cases h; exact ⟨w, rfl⟩
  all_goals cases h

/-- A request row is a request to an owner that acts, or refuses and changes nothing (log 1). -/
theorem exec_answered (h : requestHead c = some (tag, type)) :
    ∃ f : Taking, (∀ s, Answered s (s.refusing type) (f s)) ∧ ∀ s, exec c s = .next (s.request tag type f) := by
  by_cases play : type = 0x30
  · subst play
    obtain ⟨w, rfl⟩ := voicePlay_of_requestHead h
    exact ⟨doVoicePlay w, Answered.doVoicePlay w, fun _ => rfl⟩
  · refine ⟨_, fun s => ?_, exec_eq_requestOf h⟩
    rw [State.refusing, if_neg play]
    exact Answers.requestOf play _ s

/-- The reply of a request type is the type plus 0x80 (R165). -/
theorem replyType_of_requestHead (h : requestHead c = some (tag, type)) : replyType type = type + 0x80 :=
  replyType_of_lt (lt_of_mem_requestTypes (type_mem_requestTypes h))

end

theorem State.replyOwed_refusing (s : State) (type : Byte) : (s.refusing type).lnk.replyOwed = s.lnk.replyOwed := by
  unfold State.refusing
  split <;> rfl

/-- Settles O3: a request taken leaves the reply owed that it began with; one that is late, or not received, never reaches its owner. -/
theorem requestByLinkState : Obligations.RequestByLinkState := by
  unfold Obligations.RequestByLinkState
  refine ⟨fun c s tag type head takes => ?taken, fun c s isRequest => ?otherwise⟩
  case taken =>
    obtain ⟨f, owner, run⟩ := exec_answered head
    have owed := (owner s.oweReply).owed (State.replyOwed_refusing ..)
    rw [run, State.request_taken takes]
    exact ⟨_, _, rfl, owed, rfl, rfl, replyType_of_requestHead head⟩
  case otherwise =>
    obtain ⟨⟨tag, type⟩, head⟩ := Option.isSome_iff_exists.1 isRequest
    refine ⟨fun off => ?_, fun on owed => ?_⟩
    · rw [exec_eq_requestOf head, State.request_off off]
    · rw [exec_eq_requestOf head, State.request_late on owed]
      rfl

/-- A reply has VOICE PLAY's reply type exactly where the request has its type. -/
theorem add_0x80_eq_0xB0 (type : Byte) : type + 0x80 = 0xB0 ↔ type = 0x30 := by
  revert type
  decide

/-- Settles O4: an owner acts, or it refuses with the state as it was, VOICE PLAY with its failure counted. -/
theorem refusedRequestChangesNothing : Obligations.RefusedRequestChangesNothing := by
  unfold Obligations.RefusedRequestChangesNothing
  intro c s t r isRequest takes ran replied not_ok not_accepted
  obtain ⟨⟨tag, type⟩, head⟩ := Option.isSome_iff_exists.1 isRequest
  obtain ⟨f, owner, run⟩ := exec_answered head
  have answered := owner s.oweReply
  rw [run, State.request_taken takes] at ran
  generalize f s.oweReply = p at answered ran
  cases ran
  cases replied
  rw [replyType_of_requestHead head]
  cases answered with
  | acts status => exact (status.elim not_ok not_accepted).elim
  | badField i =>
    refine ⟨rfl, ?_⟩
    rw [if_neg fun counted => counted.2 rfl, State.sendReply_oweReply, replyType_of_requestHead head]
  | refuses noField =>
    refine ⟨(if_neg noField).mpr rfl, ?_⟩
    unfold State.refusing
    by_cases play : type = 0x30
    · rw [if_pos play, if_pos ⟨(add_0x80_eq_0xB0 type).2 play, noField⟩, ← replyType_of_requestHead head]
      rfl
    · rw [if_neg play, if_neg fun counted => play ((add_0x80_eq_0xB0 type).1 counted.1), State.sendReply_oweReply,
        replyType_of_requestHead head]

end Sys2Proof.Machine
end

section
/-! PROOFS. The autostart table and its entries: AUTOSTART SET, and an entry that starts an IDLE lane (R76, R78, R95, R183). -/

namespace Sys2Proof.Machine

/-! ### AUTOSTART SET (R183) -/

section

variable {s : State} {lane enabled slot : Byte} {l : Fin 4}

/-- The entry of a lane that AUTOSTART SET names. -/
theorem doAutostartSet_good (hl : lane.toNat = l.val) : doAutostartSet lane enabled slot s
    = if s.commitInFlight then refuse s .busy
      else (Answer.ok, { s with autostart := s.autostart.set l (if enabled = 0 then none else some slot.toFin) }) := by
  have entry : (if yesNo enabled then some slot.toFin else none) = if enabled = 0 then none else some slot.toFin := by
    unfold yesNo
    by_cases off : enabled = 0 <;> simp [off]
  unfold doAutostartSet
  rw [onLane_good hl, entry]

end

/-! ### An autostart entry (R95) -/

section

variable {s : State} {l : Fin 4} {k : Fin 256} {rest : List (Fin 4 × Fin 256)}

theorem exec_autostartEntry_none (due : s.autostartDue = []) : exec .autostartEntry s = .next s := by
  show Host.Outcome.next s.nextAutostart = _
  unfold State.nextAutostart
  rw [due]

/-- The entry is taken, and only an IDLE lane is started. -/
theorem exec_autostartEntry_some (due : s.autostartDue = (l, k) :: rest) :
    exec .autostartEntry s = .next (if (s.lane l).state = .idle
      then ({ s with autostartDue := rest } : State).startLane l k true .autostart else { s with autostartDue := rest }) := by
  show Host.Outcome.next s.nextAutostart = _
  unfold State.nextAutostart
  rw [due]
  rfl

end

/-- A run that starts at a WAIT_TIME block. -/
theorem State.startLane_waitTime {s : State} {k : Fin 256} {b : CueBlock} {t : Nat} (hb : s.cues.get k = some b)
    (op : b.op = .waitTime t) (l : Fin 4) (clear : Bool) (o : Origin) :
    s.startLane l k clear o = s.setLane l ((((s.lane l).prepared clear o).runningAt k).waitingOn (.time t)) :=
  State.fetched_runLane_waits (State.beginRun_block hb l clear o) hb (State.takeOp_waitTime op)

/-- Settles O29: AUTOSTART SET by its owner's checks; and an entry by the state of its lane and the block at its slot. -/
theorem autostartTableStartsIdleLanes : Obligations.AutostartTableStartsIdleLanes := by
  unfold Obligations.AutostartTableStartsIdleLanes
  refine ⟨fun tag lane enabled slot s hs => ⟨fun bad => ?_, fun l hl => ⟨fun busy => ?_, fun free => ?_⟩⟩,
    fun s => ⟨exec_autostartEntry_none, fun l k rest due => ⟨fun busy => ?_, fun idle => ?_⟩⟩⟩
  · exact State.request_badField hs (type := 0x2D) (by decide) tag (onLane_bad bad _)
  · exact State.request_answers hs (type := 0x2D) (t := s) (by decide) tag ((doAutostartSet_good hl).trans (if_pos busy))
  · exact State.request_answers hs (type := 0x2D)
      (t := { s with autostart := s.autostart.set l (if enabled = 0 then none else some slot.toFin) }) (by decide) tag
      ((doAutostartSet_good hl).trans (if_neg (ne_true_of_eq_false free)))
  · rw [exec_autostartEntry_some due, if_neg busy]
  · intro started
    rw [exec_autostartEntry_some due, if_pos idle]
    refine ⟨fun empty => ?_, fun b t block op => ?_⟩
    · rw [State.startLane_empty (s := { s with autostartDue := rest }) empty]
      rfl
    · rw [State.startLane_waitTime (s := { s with autostartDue := rest }) block op]
      rfl

end Sys2Proof.Machine
end

section
/-! PROOFS. The setup area as the loader reads it: its bytes, the entries of the section table, and the records of a section (R180, R181). -/

namespace Sys2Proof.Table

variable {α : Type} {n : Nat}

theorem cells_ofList (fill : α) {l : List α} (h : l.length = n) : (ofList n fill l).cells = l := List.take_left' h

theorem ofList_cells (fill : α) (t : Table α n) : ofList n fill t.cells = t := by
  obtain ⟨l, rfl⟩ := t
  simp [ofList]

/-- A table that holds given entries. -/
theorem exists_get {F : Fin n → α → Prop} (h : ∀ i, ∃ x, F i x) : ∃ t : Table α n, ∀ i, F i (t.get i) := by
  choose f hf using h
  refine ⟨⟨List.ofFn f, List.length_ofFn⟩, fun i => ?_⟩
  rw [get_eq_getElem, List.getElem_ofFn]
  exact hf i

theorem exists_get_eq (f : Fin n → α) : ∃ t : Table α n, ∀ i, t.get i = f i :=
  exists_get (F := fun i x => x = f i) fun i => ⟨f i, rfl⟩

end Sys2Proof.Table

namespace Sys2Proof.Machine

/-! ### Ranges of the store's bytes (R117) -/

namespace Memory

variable (m : Memory) (a : Nat)

theorem drop_readBytes (n k : Nat) : (m.readBytes a n).drop k = m.readBytes (a + k) (n - k) := by
  refine List.ext_getElem (by simp) fun j _ _ => ?_
  rw [List.getElem_drop, getElem_readBytes, getElem_readBytes, Nat.add_assoc]

theorem take_readBytes {n k : Nat} (h : k ≤ n) : (m.readBytes a n).take k = m.readBytes a k := by
  refine List.ext_getElem (by simp [h]) fun j _ _ => ?_
  rw [List.getElem_take, getElem_readBytes, getElem_readBytes]

/-- A field or a record inside a range. -/
theorem slice_readBytes {n k size : Nat} (h : k + size ≤ n) :
    ((m.readBytes a n).drop k).take size = m.readBytes (a + k) size := by
  rw [drop_readBytes, take_readBytes m _ (by omega)]

theorem getD_readBytes {n k : Nat} (h : k < n) : (m.readBytes a n).getD k 0 = m.read (a + k) := by
  rw [List.getD_eq_getElem _ _ (by simpa using h), getElem_readBytes]

theorem readBytes_eq_replicate {n : Nat} {b : Byte} :
    m.readBytes a n = List.replicate n b ↔ ∀ k, k < n → m.read (a + k) = b := by
  rw [List.eq_replicate_iff, readBytes_eq]
  simp

end Memory

/-! ### The section table (R180) -/

/-- The bytes at `n` addresses from `a` on, in the words of the statement. -/
def setupBytes (m : Memory) (a n : Nat) : List Byte := (List.range n).map fun k => m.read (a + k)

/-- The length that the section table gives section `i`. -/
def sectionLength (m : Memory) (i : Nat) : Nat := (m.read (4 * i)).toNat * 256 + (m.read (4 * i + 1)).toNat

/-- The bytes from `a` on have the CRC that the section table gives section `i` (R181 step 3). -/
def SectionWhole (m : Memory) (i a : Nat) : Prop :=
  halfBytes (crc16 (setupBytes m a (sectionLength m i))) = [m.read (4 * i + 2), m.read (4 * i + 3)]

/-- A two-byte field of the section table. -/
theorem table_field (m : Memory) {k : Nat} (h : k + 2 ≤ 24) : ((m.readBytes 0 24).drop k).take 2 = [m.read k, m.read (k + 1)] := by
  rw [Memory.slice_readBytes m 0 h, Nat.zero_add]
  rfl

theorem tableLength_eq (m : Memory) {i : Nat} (h : i < 6) : tableLength (m.readBytes 0 24) i = sectionLength m i := by
  unfold tableLength
  rw [table_field m (by omega), beNat_pair]
  rfl

theorem crc16_eq_tableCrc_iff (m : Memory) {i : Nat} (h : i < 6) (a : Nat) :
    crc16 (m.readBytes a (sectionLength m i)) = tableCrc (m.readBytes 0 24) i ↔ SectionWhole m i a := by
  unfold tableCrc SectionWhole
  rw [table_field m (by omega), Memory.readBytes_eq]
  constructor
  · intro same
    exact (congrArg halfBytes same).trans (halfBytes_ofNat_beNat ..)
  · intro same
    rw [← same]
    exact (ofNat_beNat_halfBytes _).symm

/-! ### The records of a section (R181 step 4) -/

theorem getElem_records (size count : Nat) (b : List Byte) (i : Nat) (h : i < (records size count b).length) :
    (records size count b)[i] = (b.drop (size * i)).take size := by
  induction count generalizing b i with
  | zero => exact absurd h (Nat.not_lt_zero i)
  | succ count ih => cases i with
    | zero => rfl
    | succ i =>
      refine (ih (b.drop size) i (Nat.lt_of_succ_lt_succ h)).trans ?_
      rw [List.drop_drop, Nat.mul_succ, Nat.add_comm]

theorem length_records (size count : Nat) (b : List Byte) : (records size count b).length = count := by
  induction count generalizing b with
  | zero => rfl
  | succ count ih => exact congrArg (· + 1) (ih _)

/-- All checks pass, with these values. -/
theorem allSome_eq_some_iff {α β : Type} {f : α → Option β} {l : List α} {ys : List β} :
    allSome f l = some ys ↔ l.map f = ys.map some := by
  induction l generalizing ys with
  | nil => cases ys <;> simp [allSome]
  | cons x l ih =>
    cases ys with
    | nil =>
      unfold allSome
      split <;> simp
    | cons y ys =>
      rw [List.map_cons, List.map_cons, List.cons.injEq, ← ih]
      cases hx : f x with
      | none => simp [allSome, hx]
      | some z => cases hl : allSome f l <;> simp [allSome, hx, hl]

/-- A table is loaded where each of its records passes its check, and holds what they give. -/
theorem loadTable_eq_some_iff {α : Type} {n size : Nat} {fill : α} {f : List Byte → Option α} {b : List Byte} {t : Table α n} :
    loadTable n size fill f b = some t ↔ ∀ i : Fin n, f ((b.drop (size * i.val)).take size) = some (t.get i) := by
  have cells : loadTable n size fill f b = some t ↔ (records size n b).map f = t.cells.map some := by
    unfold loadTable
    rw [Option.map_eq_some_iff, ← allSome_eq_some_iff]
    constructor
    · rintro ⟨ys, passed, rfl⟩
      have count : ys.length = n := by
        simpa [length_records] using (congrArg List.length (allSome_eq_some_iff.1 passed)).symm
      rwa [Table.cells_ofList fill count]
    · intro passed
      exact ⟨t.cells, passed, Table.ofList_cells fill t⟩
  rw [cells, List.ext_getElem_iff]
  simp only [List.length_map, length_records, t.size_eq, List.getElem_map, getElem_records, Table.get_eq_getElem, true_and]
  exact ⟨fun h i => h i.val i.isLt i.isLt, fun h i hi _ => h ⟨i, hi⟩⟩

/-! ### A section as the loader decides it (R181 step 5) -/

/-- A section is LOADED with a content that its checks allow, or CORRUPT where they allow none. -/
inductive SectionResult.Decides {α : Type} (P : α → Prop) : SectionResult α → Prop where
  | loaded (x : α) (h : P x) : Decides P (.loaded x)
  | corrupt (h : ¬∃ x, P x) : Decides P .corrupt

namespace SectionResult.Decides

variable {α : Type} {P Q : α → Prop} {r : SectionResult α}

theorem congr (h : r.Decides P) (same : ∀ x, P x ↔ Q x) : r.Decides Q := by
  cases h with
  | loaded x h => exact .loaded x ((same x).1 h)
  | corrupt h => exact .corrupt fun ⟨x, hx⟩ => h ⟨x, (same x).2 hx⟩

theorem getD_loaded (h : r.Decides P) (d : α) (exist : ∃ x, P x) : r.status.code = 0 ∧ P (r.getD d) := by
  cases h with
  | loaded x h => exact ⟨rfl, h⟩
  | corrupt h => exact absurd exist h

theorem getD_corrupt (h : r.Decides P) (d : α) (none : ¬∃ x, P x) : r.status.code = 2 ∧ r.getD d = d := by
  cases h with
  | loaded x h => exact absurd ⟨x, h⟩ none
  | corrupt h => exact ⟨rfl, rfl⟩

/-- What is taken of a section whose place, CRC and ranges decide it. -/
theorem whole {good : Prop} {F : α → Prop} (h : r.Decides fun x => good ∧ F x) (complete : good → ∃ x, F x) (d : α) :
    (good → r.status.code = 0 ∧ F (r.getD d)) ∧ (¬good → r.status.code = 2 ∧ r.getD d = d) := by
  refine ⟨fun yes => ?_, fun no => h.getD_corrupt d fun ⟨_, yes, _⟩ => no yes⟩
  obtain ⟨x, hx⟩ := complete yes
  obtain ⟨status, -, content⟩ := h.getD_loaded d ⟨x, yes, hx⟩
  exact ⟨status, content⟩

end SectionResult.Decides

/-- What is taken of a section of records, by the view that a statement has of a record. -/
theorem SectionResult.Decides.table {α β : Type} {n : Nat} {r : SectionResult (Table α n)} {placed whole : Prop}
    {F : Fin n → α → Prop} {G : Fin n → β → Prop} {view : α → β}
    (h : r.Decides fun t => placed ∧ whole ∧ ∀ i, F i (t.get i))
    (sound : ∀ i x, F i x → G i (view x)) (complete : ∀ i y, G i y → ∃ x, F i x) (d : α) :
    ((∃ f : Fin n → β, placed ∧ whole ∧ ∀ i, G i (f i)) →
      r.status.code = 0 ∧ placed ∧ whole ∧ ∀ i, G i (view ((r.getD (Table.const n d)).get i)))
    ∧ ((¬∃ f : Fin n → β, placed ∧ whole ∧ ∀ i, G i (f i)) →
      r.status.code = 2 ∧ ∀ i, view ((r.getD (Table.const n d)).get i) = view d) := by
  refine ⟨fun ⟨f, at', crc, fields⟩ => ?_, fun none => ?_⟩
  · obtain ⟨t, ht⟩ := Table.exists_get fun i => complete i (f i) (fields i)
    obtain ⟨status, -, -, content⟩ := h.getD_loaded (Table.const n d) ⟨t, at', crc, ht⟩
    exact ⟨status, at', crc, fun i => sound i _ (content i)⟩
  · obtain ⟨status, default⟩ := h.getD_corrupt (Table.const n d) fun ⟨t, at', crc, fields⟩ =>
      none ⟨fun i => view (t.get i), at', crc, fun i => sound i _ (fields i)⟩
    exact ⟨status, fun i => by rw [default, Table.get_const]⟩

/-- A section is LOADED where it has its place, its CRC and its fields (R181 steps 2 to 5). -/
theorem sectionAt_decides {α : Type} (m : Memory) {ok : Bool} {placed : Prop} (hok : ok = true ↔ placed) {i : Nat} (hi : i < 6)
    (a : Nat) (f : List Byte → Option α) :
    (sectionAt m ok a (sectionLength m i) (tableCrc (m.readBytes 0 24) i) f).Decides fun x =>
      placed ∧ SectionWhole m i a ∧ f (m.readBytes a (sectionLength m i)) = some x := by
  unfold sectionAt checkSection
  rw [← hok, ← crc16_eq_tableCrc_iff m hi a]
  split
  · split
    · next bad => exact .corrupt fun ⟨x, _, good, _⟩ => bad good
    · next at' good =>
      split
      · next none => exact .corrupt fun ⟨x, _, _, fields⟩ => by rw [none] at fields; cases fields
      · next x fields => exact .loaded x ⟨at', not_not.1 good, fields⟩
  · next bad => exact .corrupt fun ⟨x, good, _⟩ => bad good

/-- A section of records is LOADED where it has its place, its CRC and each record's fields. -/
theorem tableSection_decides {α : Type} (m : Memory) {ok : Bool} {placed : Prop} (hok : ok = true ↔ placed) {i : Nat} (hi : i < 6)
    (a : Nat) {n size : Nat} (fill : α) (f : List Byte → Option α) (fits : placed → sectionLength m i = size * n) :
    (sectionAt m ok a (sectionLength m i) (tableCrc (m.readBytes 0 24) i) (loadTable n size fill f)).Decides fun t =>
      placed ∧ SectionWhole m i a ∧ ∀ j : Fin n, f (m.readBytes (a + size * j.val) size) = some (t.get j) := by
  refine (sectionAt_decides m hok hi a _).congr fun t => and_congr_right fun at' => and_congr_right fun _ => ?_
  rw [loadTable_eq_some_iff, fits at']
  refine forall_congr' fun j => ?_
  have inside : size * j.val + size ≤ size * n := Nat.mul_le_mul_left size j.isLt
  rw [Memory.slice_readBytes m a inside]

end Sys2Proof.Machine
end

section
/-! PROOFS. Loading: each section LOADED or CORRUPT by its place, CRC and fields, a part never written BLANK, and what the owners take (R123,
R147, R180 to R182). -/

namespace Sys2Proof.Machine

/-! ### The fields of a section (R181 step 4) -/

/-- The first byte as the loader reads it, in the words of the statement. -/
theorem yesNo_getD_eq_false_iff {b : List Byte} (h : b ≠ []) : yesNo (b.getD 0 0) = false ↔ b.head? = some 0 := by
  cases b with
  | nil => exact absurd rfl h
  | cons x b => simp [yesNo]

theorem passed_eq_some_iff {α : Type} {x : Except Nat α} {y : α} : passed x = some y ↔ x = .ok y := by
  cases x <;> simp [passed]

/-- A directory record's clip: EMPTY by its defined byte, or the record that its fields give (R123, R180). -/
def ClipAt (b : List Byte) (r : Option ClipRecord) : Prop :=
  if b.head? = some 0 then r = none else ∃ q, r = some q ∧ clipRecordOf (clipWireOf (b.drop 1)) = .ok q

theorem loadClip_eq_some_iff {b : List Byte} (h : b ≠ []) {x : Clip} :
    loadClip b = some x ↔ ClipAt b x.record ∧ x.useCount = 0 := by
  obtain ⟨record, useCount⟩ := x
  unfold loadClip ClipAt
  by_cases empty : b.head? = some 0
  · rw [if_pos empty, (yesNo_getD_eq_false_iff h).2 empty]
    simp [Clip.empty, eq_comm]
  · rw [if_neg empty, Bool.eq_true_of_not_eq_false (mt (yesNo_getD_eq_false_iff h).1 empty), if_pos rfl, Option.map_eq_some_iff]
    simp only [passed_eq_some_iff, Clip.mk.injEq]
    constructor
    · rintro ⟨q, good, rfl, rfl⟩
      exact ⟨⟨q, rfl, good⟩, rfl⟩
    · rintro ⟨⟨q, rfl, good⟩, rfl⟩
      exact ⟨q, good, rfl, rfl⟩

/-- A cue slot: EMPTY by its op, or the block that its bytes give (R60, R180). -/
def CueAt (b : List Byte) (c : Option CueBlock) : Prop :=
  if b.head? = some 0 then c = none else ∃ q, c = some q ∧ cueBlockOf b = .ok q

theorem loadCue_eq_some_iff {b : List Byte} (h : b ≠ []) {c : Option CueBlock} : loadCue b = some c ↔ CueAt b c := by
  have op : (b.getD 0 0).toNat = 0 ↔ b.head? = some 0 := by
    rw [byte_toNat_eq_zero, ← yesNo_getD_eq_false_iff h, yesNo, decide_eq_false_iff_not, not_not]
  unfold loadCue CueAt
  by_cases empty : b.head? = some 0
  · rw [if_pos empty, if_pos (op.2 empty), Option.some.injEq, eq_comm]
  · rw [if_neg empty, if_neg (mt op.1 empty), Option.map_eq_some_iff]
    simp only [passed_eq_some_iff]
    exact exists_congr fun q => ⟨fun ⟨good, same⟩ => ⟨same.symm, good⟩, fun ⟨same, good⟩ => ⟨good, same.symm⟩⟩

/-- A code's bytes come back from the code they spell (R172). -/
theorem codeBytes_ofNat_beNat (w x y z : Byte) : codeBytes (BitVec.ofNat 32 (beNat [w, x, y, z])) = [w, x, y, z] := by
  have spelt : beNat [w, x, y, z] = ((w.toNat * 256 + x.toNat) * 256 + y.toNat) * 256 + z.toNat := by simp [beNat]
  have bound : beNat [w, x, y, z] % 2 ^ 32 = beNat [w, x, y, z] := Nat.mod_eq_of_lt (by omega)
  have byte (k : Nat) (b : Byte) (h : beNat [w, x, y, z] / 2 ^ k % 256 = b.toNat) :
      (BitVec.ofNat 32 (beNat [w, x, y, z])).extractLsb' k 8 = b := by
    apply BitVec.eq_of_toNat_eq
    rw [BitVec.extractLsb'_toNat, Nat.shiftRight_eq_div_pow, BitVec.toNat_ofNat, bound]
    exact h
  unfold codeBytes
  rw [byte 24 w (by omega), byte 16 x (by omega), byte 8 y (by omega), byte 0 z (by omega)]

/-- The codes cut from some bytes, four bytes each, have these bytes. -/
theorem codeBytes_records (n : Nat) (b : List Byte) (h : b.length = 4 * n) :
    ((records 4 n b).map fun c => BitVec.ofNat 32 (beNat c)).flatMap codeBytes = b := by
  induction n generalizing b with
  | zero => exact (List.length_eq_zero_iff.1 h).symm
  | succ n ih =>
    match b, h with
    | w :: x :: y :: z :: b, h =>
      exact congrArg₂ (· ++ ·) (codeBytes_ofNat_beNat w x y z) (ih b (by simp at h; omega))

/-- Bytes in fours are the bytes of codes. -/
theorem exists_codes {n : Nat} {b : List Byte} (h : b.length = 4 * n) : ∃ l : List Code, l.length = n ∧ l.flatMap codeBytes = b :=
  ⟨_, by rw [List.length_map, length_records], codeBytes_records n b h⟩

theorem loadFilter_eq_some_iff {b : List Byte} {n : Nat} {l : List Code} (count : (b.getD 0 0).toNat = n) (most : n ≤ 32)
    (length : (b.drop 1).length = 4 * n) : loadFilter b = some l ↔ l.length = n ∧ l.flatMap codeBytes = b.drop 1 := by
  unfold loadFilter
  rw [count, if_neg (by omega), Option.some.injEq]
  constructor
  · rintro rfl
    exact ⟨by rw [List.length_map, length_records], codeBytes_records n _ length⟩
  · rintro ⟨rfl, bytes⟩
    rw [← bytes]
    exact records_codes l

/-- Each of the nine settings is in its range (R114, R147). -/
def SettingsInRange (b : Nat → Byte) : Prop :=
  (b 0).toNat ≤ 1 ∧ (b 1).toNat * 256 + (b 2).toNat ≤ 4095 ∧ (b 3).toNat * 256 + (b 4).toNat ≤ 4095
    ∧ (b 5).toNat ≤ 1 ∧ (b 6).toNat ≤ 15 ∧ (b 7).toNat ≤ 2 ∧ (b 8).toNat ≤ 2

/-- The settings of OUT that nine bytes give. -/
def outputSettings (b : Nat → Byte) : OutputSettings :=
  ⟨if b 0 = 0 then .stereo else .mono, (b 1).toNat * 256 + (b 2).toNat, (b 3).toNat * 256 + (b 4).toNat, decide (b 5 = 1), (b 6).toNat⟩

theorem firstBadOutputField_eq_none_iff {mode : Byte} {left right : Half} {mute zone : Byte} :
    firstBadOutputField mode left right mute zone = none ↔
      mode.toNat ≤ 1 ∧ left.toNat ≤ 4095 ∧ right.toNat ≤ 4095 ∧ mute.toNat ≤ 1 ∧ zone.toNat ≤ 15 := by
  unfold firstBadOutputField
  split_ifs <;> simp <;> omega

theorem outputOf_eq_ok_iff {mode : Byte} {left right : Half} {mute zone : Byte} {x : OutputSettings} :
    outputOf mode left right mute zone = .ok x ↔ firstBadOutputField mode left right mute zone = none
      ∧ x = ⟨if mode = 0 then .stereo else .mono, left.toNat, right.toNat, decide (mute = 1), zone.toNat⟩ := by
  rw [outputOf_eq]
  cases good : firstBadOutputField mode left right mute zone with
  | none =>
    rw [yesNo_of_good good]
    exact ⟨fun h => ⟨rfl, (Except.ok.inj h).symm⟩, fun h => congrArg Except.ok h.2.symm⟩
  | some k => exact ⟨nofun, nofun⟩

/-- Every byte up to 2 is the code of a report setting (R99). -/
theorem Report.exists_code {b : Byte} (h : b.toNat ≤ 2) : ∃ p : Report, p.code = b := by
  have hb : b.toNat = 0 ∨ b.toNat = 1 ∨ b.toNat = 2 := by omega
  rcases hb with e | e | e
  · exact ⟨.nothing, (BitVec.eq_of_toNat_eq e).symm⟩
  · exact ⟨.unbound, (BitVec.eq_of_toNat_eq e).symm⟩
  · exact ⟨.all, (BitVec.eq_of_toNat_eq e).symm⟩

theorem triggerOf_eq_ok_iff {rate report : Byte} {y : TriggerSettings} :
    triggerOf rate report = .ok y ↔ y.rate.code = rate ∧ y.report.code = report := by
  constructor
  · intro ok
    have hr : rate.toNat ≤ 2 := not_lt.1 fun big => by rw [triggerOf_bad_rate big] at ok; cases ok
    have hp : report.toNat ≤ 2 := not_lt.1 fun big => by rw [triggerOf_bad_report hr big] at ok; cases ok
    obtain ⟨r, rfl⟩ := TrigRate.exists_code hr
    obtain ⟨p, rfl⟩ := Report.exists_code hp
    rw [triggerOf_good] at ok
    cases ok
    exact ⟨rfl, rfl⟩
  · rintro ⟨rfl, rfl⟩
    exact triggerOf_good ..

theorem TrigRate.toNat_code (r : TrigRate) : r.code.toNat ≤ 2 := by cases r <;> decide

theorem Report.toNat_code (p : Report) : p.code.toNat ≤ 2 := by cases p <;> decide

theorem loadSettings_eq_some_iff {l : List Byte} {b : Nat → Byte} (h : ∀ k, k < 9 → l.getD k 0 = b k)
    {x : OutputSettings × TriggerSettings} : loadSettings l = some x ↔
      SettingsInRange b ∧ x.1 = outputSettings b ∧ x.2.rate.code = b 7 ∧ x.2.report.code = b 8 := by
  obtain ⟨x, y⟩ := x
  have read : loadSettings l = some (x, y) ↔ outputOf (b 0) (b 1 ++ b 2) (b 3 ++ b 4) (b 5) (b 6) = .ok x
      ∧ triggerOf (b 7) (b 8) = .ok y := by
    unfold loadSettings
    rw [h 0 (by decide), h 1 (by decide), h 2 (by decide), h 3 (by decide), h 4 (by decide), h 5 (by decide), h 6 (by decide),
      h 7 (by decide), h 8 (by decide)]
    cases outputOf (b 0) (b 1 ++ b 2) (b 3 ++ b 4) (b 5) (b 6) <;> cases triggerOf (b 7) (b 8) <;> simp
  unfold SettingsInRange
  rw [read, outputOf_eq_ok_iff, triggerOf_eq_ok_iff, firstBadOutputField_eq_none_iff, toNat_append_byte, toNat_append_byte]
  constructor
  · rintro ⟨⟨⟨mode, left, right, mute, zone⟩, same⟩, rate, report⟩
    exact ⟨⟨mode, left, right, mute, zone, rate ▸ y.rate.toNat_code, report ▸ y.report.toNat_code⟩, same, rate, report⟩
  · rintro ⟨⟨mode, left, right, mute, zone, -, -⟩, same, rate, report⟩
    exact ⟨⟨⟨mode, left, right, mute, zone⟩, same⟩, rate, report⟩

/-- Settings in their ranges are settings of the two owners. -/
theorem exists_settings {b : Nat → Byte} (h : SettingsInRange b) : ∃ x : OutputSettings × TriggerSettings,
    x.1 = outputSettings b ∧ x.2.rate.code = b 7 ∧ x.2.report.code = b 8 := by
  obtain ⟨-, -, -, -, -, rate, report⟩ := h
  obtain ⟨r, hr⟩ := TrigRate.exists_code rate
  obtain ⟨p, hp⟩ := Report.exists_code report
  exact ⟨(outputSettings b, ⟨r, p⟩), rfl, hr, hp⟩

end Sys2Proof.Machine
end

section
/-! PROOFS. SETUP_LOAD: the six sections in their places, and what the owners take of them (R181, R182). -/

namespace Sys2Proof.Machine

/-! ### The sections in their places (R181 steps 2 to 5) -/

/-- Where the sections of sector 0 behind the directory begin, by the lengths of those before them. -/
def bindingsPlace (m : Memory) : Nat := 24 + sectionLength m 0
def filterPlace (m : Memory) : Nat := bindingsPlace m + sectionLength m 2
def settingsPlace (m : Memory) : Nat := filterPlace m + sectionLength m 3
def autostartPlace (m : Memory) : Nat := settingsPlace m + sectionLength m 4

/-- A section and those before it have the lengths that R181 allows. -/
def BindingsPlaced (m : Memory) : Prop := sectionLength m 0 = 1216 ∧ sectionLength m 2 = 320
def FilterPlaced (m : Memory) : Prop :=
  BindingsPlaced m ∧ sectionLength m 3 ≤ 129 ∧ sectionLength m 3 = 1 + 4 * (m.read (filterPlace m)).toNat
def SettingsPlaced (m : Memory) : Prop := FilterPlaced m ∧ sectionLength m 4 = 9

/-- The setup area has been written: its section table is not all 0xFF. -/
def SetupWritten (m : Memory) : Prop := ∃ a, a < 24 ∧ m.read a ≠ 0xFF

theorem table_eq_replicate_iff (m : Memory) : m.readBytes 0 24 = List.replicate 24 0xFF ↔ ∀ a, a < 24 → m.read a = 0xFF := by
  simp only [Memory.readBytes_eq_replicate, Nat.zero_add]

theorem loadSections_blank {m : Memory} (blank : ∀ a, a < 24 → m.read a = 0xFF) : loadSections m = Loaded.allBlank :=
  if_pos ((table_eq_replicate_iff m).2 blank)

/-! The checks of a place, as the loader makes them. -/

section

variable {m : Memory}

theorem bindingsPlaced_iff : (decide (sectionLength m 0 = 1216) && decide (sectionLength m 2 = 320)) = true ↔ BindingsPlaced m := by
  unfold BindingsPlaced
  rw [Bool.and_eq_true, decide_eq_true_iff, decide_eq_true_iff]

theorem filterPlaced_iff : (decide (sectionLength m 0 = 1216) && decide (sectionLength m 2 = 320)
    && filterLengthOk m (filterPlace m) (sectionLength m 3)) = true ↔ FilterPlaced m := by
  unfold FilterPlaced filterLengthOk
  rw [Bool.and_eq_true, bindingsPlaced_iff, Bool.and_eq_true, decide_eq_true_iff, decide_eq_true_iff]

theorem settingsPlaced_iff : (decide (sectionLength m 0 = 1216) && decide (sectionLength m 2 = 320)
    && filterLengthOk m (filterPlace m) (sectionLength m 3) && decide (sectionLength m 4 = 9)) = true ↔ SettingsPlaced m := by
  unfold SettingsPlaced
  rw [Bool.and_eq_true, filterPlaced_iff, decide_eq_true_iff]

theorem autostartPlaced_iff : (decide (sectionLength m 0 = 1216) && decide (sectionLength m 2 = 320)
    && filterLengthOk m (filterPlace m) (sectionLength m 3) && decide (sectionLength m 4 = 9)
    && decide (sectionLength m 5 = 8)) = true ↔ SettingsPlaced m ∧ sectionLength m 5 = 8 := by
  rw [Bool.and_eq_true, settingsPlaced_iff, decide_eq_true_iff]

end

/-- A lane's entry of the autostart section. -/
theorem loadAutostart_readBytes (m : Memory) (a : Nat) :
    loadAutostart (m.readBytes a 2) = if m.read a = 0 then none else some (m.read (a + 1)).toFin := by
  show (if yesNo (m.read a) = true then some (m.read (a + 1)).toFin else none) = _
  by_cases off : m.read a = 0 <;> simp [yesNo, off]

theorem readBytes_eq_setupBytes (m : Memory) (a n : Nat) : m.readBytes a n = setupBytes m a n := m.readBytes_eq a n

theorem setupBytes_ne_nil (m : Memory) (a n : Nat) : setupBytes m a (n + 1) ≠ [] := by simp [setupBytes]

section

variable {m : Memory} (written : SetupWritten m)

include written

/-- What the loader reads, each place and length in the words of the section table. -/
theorem loadSections_written :
    let crc := tableCrc (m.readBytes 0 24)
    let okBindings := decide (sectionLength m 0 = 1216) && decide (sectionLength m 2 = 320)
    let okFilter := okBindings && filterLengthOk m (filterPlace m) (sectionLength m 3)
    let okSettings := okFilter && decide (sectionLength m 4 = 9)
    loadSections m =
      { directory := sectionAt m (decide (sectionLength m 0 = 1216)) 24 (sectionLength m 0) (crc 0) (loadTable 64 19 Clip.empty loadClip)
        cues := sectionAt m (decide (sectionLength m 1 = 4096)) 4096 (sectionLength m 1) (crc 1) (loadTable 256 16 none loadCue)
        bindings := sectionAt m okBindings (bindingsPlace m) (sectionLength m 2) (crc 2) (loadTable 32 10 Binding.cold loadBinding)
        filter := sectionAt m okFilter (filterPlace m) (sectionLength m 3) (crc 3) loadFilter
        settings := sectionAt m okSettings (settingsPlace m) (sectionLength m 4) (crc 4) loadSettings
        autostart := sectionAt m (okSettings && decide (sectionLength m 5 = 8)) (autostartPlace m) (sectionLength m 5) (crc 5)
          (loadTable 4 2 none fun b => some (loadAutostart b)) } := by
  have table : ¬m.readBytes 0 24 = List.replicate 24 0xFF := fun blank =>
    let ⟨a, inside, other⟩ := written
    other ((table_eq_replicate_iff m).1 blank a inside)
  unfold loadSections autostartPlace settingsPlace filterPlace bindingsPlace
  simp only [if_neg table, tableLength_eq m (show 0 < 6 by decide), tableLength_eq m (show 1 < 6 by decide),
    tableLength_eq m (show 2 < 6 by decide), tableLength_eq m (show 3 < 6 by decide), tableLength_eq m (show 4 < 6 by decide),
    tableLength_eq m (show 5 < 6 by decide)]
  rfl

theorem directory_decides : (loadSections m).directory.Decides fun t =>
    sectionLength m 0 = 1216 ∧ SectionWhole m 0 24
      ∧ ∀ j : Fin 64, ClipAt (setupBytes m (24 + 19 * j.val) 19) (t.get j).record ∧ (t.get j).useCount = 0 := by
  rw [loadSections_written written]
  refine (tableSection_decides m (placed := sectionLength m 0 = 1216) decide_eq_true_iff (show 0 < 6 by decide) 24 (size := 19)
    Clip.empty loadClip fun length => length).congr fun t =>
      and_congr_right fun _ => and_congr_right fun _ => forall_congr' fun j => ?_
  rw [readBytes_eq_setupBytes]
  exact loadClip_eq_some_iff (setupBytes_ne_nil m _ 18)

theorem cues_decides : (loadSections m).cues.Decides fun t =>
    sectionLength m 1 = 4096 ∧ SectionWhole m 1 4096
      ∧ ∀ j : Fin 256, CueAt (setupBytes m (4096 + 16 * j.val) 16) (t.get j) := by
  rw [loadSections_written written]
  refine (tableSection_decides m (placed := sectionLength m 1 = 4096) decide_eq_true_iff (show 1 < 6 by decide) 4096 (size := 16)
    none loadCue fun length => length).congr fun t =>
      and_congr_right fun _ => and_congr_right fun _ => forall_congr' fun j => ?_
  rw [readBytes_eq_setupBytes]
  exact loadCue_eq_some_iff (setupBytes_ne_nil m _ 15)

theorem bindings_decides : (loadSections m).bindings.Decides fun t =>
    BindingsPlaced m ∧ SectionWhole m 2 (bindingsPlace m)
      ∧ ∀ j : Fin 32, bindingOf (bindingWireOf (setupBytes m (bindingsPlace m + 10 * j.val) 10)) = .ok (t.get j) := by
  rw [loadSections_written written]
  refine (tableSection_decides m bindingsPlaced_iff (show 2 < 6 by decide) _ _ _ And.right).congr fun t =>
    and_congr_right fun _ => and_congr_right fun _ => forall_congr' fun j => ?_
  rw [readBytes_eq_setupBytes]
  exact passed_eq_some_iff

/-- The filter list: its count, and the codes that the bytes behind it spell. -/
theorem filter_decides : (loadSections m).filter.Decides fun l =>
    (FilterPlaced m ∧ SectionWhole m 3 (filterPlace m)) ∧ l.length = (m.read (filterPlace m)).toNat
      ∧ l.flatMap codeBytes = setupBytes m (filterPlace m + 1) (4 * (m.read (filterPlace m)).toNat) := by
  rw [loadSections_written written]
  refine (sectionAt_decides m filterPlaced_iff (show 3 < 6 by decide) _ _).congr fun l => ?_
  rw [and_assoc]
  refine and_congr_right fun ⟨_, most, length⟩ => and_congr_right fun _ => ?_
  have codes : (m.readBytes (filterPlace m) (sectionLength m 3)).drop 1
      = setupBytes m (filterPlace m + 1) (4 * (m.read (filterPlace m)).toNat) := by
    rw [Memory.drop_readBytes, readBytes_eq_setupBytes, length, Nat.add_sub_cancel_left]
  rw [← codes]
  refine loadFilter_eq_some_iff (congrArg BitVec.toNat ?_) (by omega) ?_
  · rw [Memory.getD_readBytes _ _ (by omega), Nat.add_zero]
  · rw [codes, setupBytes, List.length_map, List.length_range]

theorem settings_decides : (loadSections m).settings.Decides fun x =>
    (SettingsPlaced m ∧ SectionWhole m 4 (settingsPlace m) ∧ SettingsInRange fun k => m.read (settingsPlace m + k))
      ∧ x.1 = outputSettings (fun k => m.read (settingsPlace m + k))
      ∧ x.2.rate.code = m.read (settingsPlace m + 7) ∧ x.2.report.code = m.read (settingsPlace m + 8) := by
  rw [loadSections_written written]
  refine (sectionAt_decides m settingsPlaced_iff (show 4 < 6 by decide) _ _).congr fun x => ?_
  rw [and_assoc, and_assoc]
  refine and_congr_right fun ⟨_, length⟩ => and_congr_right fun _ => loadSettings_eq_some_iff fun k inside => ?_
  rw [Memory.getD_readBytes _ _ (by omega)]

theorem autostart_decides : (loadSections m).autostart.Decides fun t =>
    (SettingsPlaced m ∧ sectionLength m 5 = 8 ∧ SectionWhole m 5 (autostartPlace m))
      ∧ ∀ l : Fin 4, t.get l = if m.read (autostartPlace m + 2 * l.val) = 0 then none
          else some (m.read (autostartPlace m + 2 * l.val + 1)).toFin := by
  rw [loadSections_written written]
  refine (tableSection_decides m autostartPlaced_iff (show 5 < 6 by decide) _ _ _ And.right).congr fun t => ?_
  rw [and_assoc, and_assoc, and_assoc]
  refine and_congr_right fun _ => and_congr_right fun _ => and_congr_right fun _ => forall_congr' fun l => ?_
  rw [Option.some.injEq, loadAutostart_readBytes, eq_comm]

end

/-! ### What loading makes of the state (R182) -/

/-- The state with the owners' contents, both receivers HUNTING and SETUP_LOADED posted. -/
def State.loadedWith (s : State) (x : Loaded) : State :=
  { s with
    clips := x.directory.getD (Table.const 64 Clip.empty)
    cues := x.cues.getD (Table.const 256 none)
    trg := { rate := (x.settings.getD defaultSettings).2.rate, report := (x.settings.getD defaultSettings).2.report
             rx := .hunting, bytes := [], gap := 0, reception := s.trg.reception
             filterList := x.filter.getD [], filterTable := filterMarks (x.filter.getD [])
             bindings := x.bindings.getD (Table.const 32 Binding.cold) }
    out := s.out.take (x.settings.getD defaultSettings).1
    autostart := x.autostart.getD (Table.const 4 none)
    autostartDue := autostartEntries (x.autostart.getD (Table.const 4 none))
    loadDue := false
    lnk := { s.lnk with rx := .hunting, bytes := [], frameLength := none, gap := 0 }
    evq := (s.post .setupLoaded 0 0 0 x.value).evq }

theorem State.loadingComplete_handOver (s : State) (x : Loaded) : (s.handOver x).loadingComplete x = s.loadedWith x := by
  have posted := State.evq_post_congr (s := s)
    (t := { s.handOver x with
      trg := (s.handOver x).trg.hunt, lnk := { s.lnk with rx := .hunting, bytes := [], frameLength := none, gap := 0 } })
    rfl rfl .setupLoaded 0 0 0 x.value
  unfold State.loadedWith
  rw [← posted]
  exact State.post_eq ..

section

variable {s : State}

theorem exec_setupLoad (power : s.power = true) (nrst : s.nrst = false) (cold : s.coldWait = false) (due : s.loadDue = true) :
    exec .setupLoad s = .next (s.loadedWith (loadSections s.mem)) := by
  show Host.Outcome.next s.load = _
  unfold State.load
  rw [power, nrst, cold, due, ← State.loadingComplete_handOver]
  rfl

theorem exec_setupLoad_waits (h : s.coldWait = true ∨ s.nrst = true ∨ s.loadDue = false ∨ s.power = false) :
    exec .setupLoad s = .next s := by
  refine congrArg Host.Outcome.next (if_neg ?_)
  rcases h with h | h | h | h <;> simp [h]

end

/-! ### The statement -/

/-- The status that SETUP_LOADED gives of each section, in the order of the section table (R177, R182). -/
def Loaded.statusOf (x : Loaded) : Fin 6 → Nat :=
  ![x.directory.status.code, x.cues.status.code, x.bindings.status.code, x.filter.status.code, x.settings.status.code
    , x.autostart.status.code]

/-- Settles O14: a part never written; one whose setup area has been written, section by section; and the states in which loading
waits. -/
theorem blankSetupLoadsTheDefaults : Obligations.BlankSetupLoadsTheDefaults := by
  unfold Obligations.BlankSetupLoadsTheDefaults
  refine ⟨fun s power nrst cold due blank => ?_, fun s power nrst cold due written => ?_, fun s => exec_setupLoad_waits⟩
  · rw [exec_setupLoad power nrst cold due, loadSections_blank blank]
    rfl
  · intro m bytes len whole bindings filter settings autostart okBindings okFilter okSettings clipAt cueAt bindingAt setting left right
      directoryLoads cuesLoad bindingsLoad filterLoads settingsLoad autostartLoads
    obtain ⟨directory, noDirectory⟩ := (directory_decides written).table
      (F := fun j x => ClipAt (setupBytes s.mem (24 + 19 * j.val) 19) x.record ∧ x.useCount = 0) (view := Clip.record)
      (fun _ _ h => h.1) (fun _ r h => ⟨⟨r, 0⟩, h, rfl⟩) Clip.empty
    obtain ⟨cues, noCues⟩ := (cues_decides written).table (view := id) (fun _ _ h => h) (fun _ c h => ⟨c, h⟩) none
    obtain ⟨table, noTable⟩ := (bindings_decides written).table
      (F := fun j b => bindingOf (bindingWireOf (setupBytes s.mem (bindingsPlace s.mem + 10 * j.val) 10)) = .ok b) (view := id)
      (fun _ _ h => h) (fun _ b h => ⟨b, h⟩) Binding.cold
    obtain ⟨list, noList⟩ := (filter_decides written).whole (fun _ => exists_codes (by simp [setupBytes])) []
    obtain ⟨settingsTaken, noSettings⟩ := (settings_decides written).whole (fun ⟨_, _, ranges⟩ => exists_settings ranges)
      defaultSettings
    obtain ⟨slots, noSlots⟩ := (autostart_decides written).whole (fun _ => Table.exists_get_eq _) (Table.const 4 none)
    refine ⟨s.loadedWith (loadSections s.mem), (loadSections s.mem).statusOf, exec_setupLoad power nrst cold due,
      directory, noDirectory, useCount_directory s.mem, cues, noCues, table, noTable, list, noList, rfl,
      fun h => ?_, fun h => ?_, slots, fun h => ?_, rfl, rfl, rfl, rfl, rfl⟩
    · obtain ⟨status, output, rate, report⟩ := settingsTaken h
      exact ⟨status, rate, report, congrArg s.out.take output⟩
    · obtain ⟨status, content⟩ := noSettings h
      exact ⟨status, congrArg (fun x => x.2.rate) content, congrArg (fun x => x.2.report) content,
        congrArg (fun x => s.out.take (Prod.fst x)) content⟩
    · obtain ⟨status, content⟩ := noSlots h
      refine ⟨status, fun l => ?_⟩
      show ((loadSections s.mem).autostart.getD (Table.const 4 none)).get l = none
      rw [content, Table.get_const]

end Sys2Proof.Machine
end

section
/-! PROOFS. Every command completes and leaves the queue to the step: what each operation of the part makes of the commands that wait,
block by block (log 21). -/

namespace Sys2Proof.Machine

/-! ### The owners of the requests (R164, R166, R174) -/

/-- Voices, allocator and lanes take no command. -/
theorem Moves.pending {s t : State} (h : Moves s t) : t.pending = s.pending := h.untouched.pending

theorem pending_onLane {s : State} (lane : Byte) {f : Fin 4 → Taking} (kept : ∀ l, (f l s).2.pending = s.pending) :
    (onLane lane f s).2.pending = s.pending := by
  unfold onLane
  split
  · rfl
  · exact kept _

theorem pending_onVoice {s : State} (voice g : Byte) {f : State → Handle → Status × State} (moves : ∀ h, Moves s (f s h).2) :
    (onVoice voice g f s).2.pending = s.pending := by
  unfold onVoice
  split
  · rfl
  · exact (moves _).pending

theorem pending_doCueWrite (s : State) (slot : Byte) (block : List Byte) : (doCueWrite slot block s).2.pending = s.pending := by
  unfold doCueWrite
  split
  · rfl
  · split
    · rfl
    · next b _ =>
      unfold State.writeCue
      split
      · rfl
      · split
        · rfl
        · exact (Moves.wakeStarved (s.setCue slot.toFin (some b)) slot.toFin).pending

theorem pending_laneStartAt (slot clear : Byte) (l : Fin 4) (s : State) :
    (State.laneStartAt slot clear l s).2.pending = s.pending := by
  unfold State.laneStartAt
  split
  case h_1 | h_2 => exact (Moves.startLane ..).pending
  all_goals rfl

theorem pending_doVoicePlay (w : OrderWire) (s : State) : (doVoicePlay w s).2.pending = s.pending := by
  unfold doVoicePlay
  split
  · rfl
  · next o _ =>
    have order := (Moves.takeOrder s o .link).pending
    unfold State.playAnswer
    split <;> next e => rw [e] at order; exact order

theorem pending_doVoiceRamp (voice g : Byte) (target : Half) (rate scale mode notify : Byte) (s : State) :
    (doVoiceRamp voice g target rate scale mode notify s).2.pending = s.pending := by
  unfold doVoiceRamp
  split
  · rfl
  · split
    · rfl
    · exact (Moves.opRamp ..).pending

theorem pending_doEventRead (count : Byte) (s : State) : (doEventRead count s).2.pending = s.pending := by
  unfold doEventRead
  split
  · rfl
  · exact (Moves.foldl State.postNotice .postNotice ..).pending

/-- The owner of a request takes no command: it moves voices or lanes, or replaces what is its own. -/
theorem RequestOwner.pending {f : Taking} (owner : RequestOwner f) (s : State) : (f s).2.pending = s.pending := by
  cases owner with
  | cueWrite => exact pending_doCueWrite ..
  | laneStart => exact pending_onLane _ fun l => pending_laneStartAt _ _ l s
  | lanePause => exact pending_onLane _ fun l => (Moves.pauseRequest s l).pending
  | laneResume => exact pending_onLane _ fun l => (Moves.resumeLane s l).pending
  | laneAbort =>
    refine pending_onLane _ fun l => ?_
    split
    · rfl
    · exact (Moves.abortLane ..).pending
  | voicePlay => exact pending_doVoicePlay ..
  | voiceRamp => exact pending_doVoiceRamp ..
  | voiceRelease => exact pending_onVoice _ _ (.opRelease s)
  | voiceStop => exact pending_onVoice _ _ (.opStop s)
  | voiceHold => exact pending_onVoice _ _ (.opHold s)
  | voiceContinue => exact pending_onVoice _ _ (.opContinue s)
  | eventRead => exact pending_doEventRead ..
  | laneStatus => exact pending_onLane _ fun _ => rfl
  | autostartSet => exact pending_onLane _ fun l => by split <;> rfl
  | storeProgram | storeErase | storeRead | setupCommit | clipDefine | clipDelete | clipRead | cueClear | cueRead | voiceStatus
  | filterSet | bindSet | bindClear | bindRead | triggerSet | outputSet | tallyRead | linkSet =>
    simp only [doStoreProgram, doStoreErase, State.beginOn, doStoreRead, doSetupCommit, doClipDefine, State.defineClip, doClipDelete,
      doClipRead, doCueClear, doCueRead, doVoiceStatus, doFilterSet, doBindSet, doBindClear, doBindRead, doTriggerSet, doOutputSet,
      doTallyRead, doLinkSet]
    repeat' split
    all_goals rfl
  | refused | badField | identify | storeStatus | resetCold | resetWarm => rfl

namespace State

/-! ### What is done under a condition -/

section

variable {s t : State}

/-- What is done under a condition, or not at all. -/
theorem pending_ite (h : t.pending = s.pending) (b : Bool) : (if b = true then t else s).pending = s.pending := by
  split
  · exact h
  · rfl

/-- A command of log 3 that takes a share of the coming frame ahead, or has no effect. -/
theorem pending_ahead (h : t.pending = s.pending) (b : Bool) (p : Progress) :
    (if b = true then { t with progress := p } else s).pending = s.pending := by
  split
  · exact h
  · rfl

/-- A share that has been taken already, or is taken now. -/
theorem pending_share (h : t.pending = s.pending) (taken : Bool) : (if taken = true then s else t).pending = s.pending := by
  split
  · rfl
  · exact h

end

variable (s : State)

/-! ### The host line (R161 to R166, R169) -/

theorem pending_takeRequest {f : Taking} (owner : RequestOwner f) (tag type : Byte) :
    (s.takeRequest tag type f).pending = s.pending := owner.pending s.oweReply

theorem pending_request {f : Taking} (owner : RequestOwner f) (tag type : Byte) : (s.request tag type f).pending = s.pending := by
  unfold request
  split
  · rfl
  · split
    · rfl
    · exact s.pending_takeRequest owner ..

@[simp] theorem pending_takeFrame (bytes : List Byte) (length : Nat) : (s.takeFrame bytes length).pending = s.pending := by
  unfold takeFrame
  dsimp only
  split
  · rfl
  · split
    · rfl
    · exact s.pending_takeRequest (.requestOf _ _) ..

@[simp] theorem pending_keepByte (held : List Byte) : (s.keepByte held).pending = s.pending := by
  unfold keepByte
  split
  · rfl
  · split
    · rfl
    · split
      · rfl
      · exact pending_takeFrame ..

@[simp] theorem pending_noteLnk (r : Reception) : (s.noteLnk r).pending = s.pending := by
  unfold noteLnk
  split <;> rfl

@[simp] theorem pending_hostTake (b : Byte) (good : Bool) : (s.hostTake b good).pending = s.pending := by
  unfold hostTake
  split
  · rfl
  · split <;> rfl
  · split
    · exact pending_keepByte ..
    · rfl

@[simp] theorem pending_hostByte (b : Byte) (good : Bool) : (s.hostByte b good).pending = s.pending := by
  unfold hostByte
  split <;> simp

@[simp] theorem pending_hostLine (good : Bool) (e : LineEvent) : (s.hostLine good e).pending = s.pending := by
  cases e with
  | startBit => exact pending_noteLnk ..
  | byte b => exact pending_hostByte ..

@[simp] theorem pending_hostGapFrame : s.hostGapFrame.pending = s.pending := by
  unfold hostGapFrame
  split
  · split <;> rfl
  · rfl

/-- The end of a reply, with the rate or the cold reset that waited for it. -/
@[simp] theorem pending_replyEnds : s.replyEnds.pending = s.pending := by
  unfold replyEnds
  split <;> rfl

/-! ### The trigger line (R100 to R110) -/

@[simp] theorem pending_bindingActs (i : Fin 32) : (s.bindingActs i).pending = s.pending := by
  have start := (Moves.bindingStart (s.loadHoldoff i) i (s.binding i)).pending
  unfold bindingActs
  dsimp only
  rw [← loadHoldoff]
  split
  · rfl
  · split <;> next e => rw [e] at start; exact start

@[simp] theorem pending_fireBindings (c : Code) : (s.fireBindings c).2.pending = s.pending := by
  rw [fireBindings_eq]
  exact List.foldlRecOn (motive := fun t : State => t.pending = s.pending) _ _ rfl fun t h i _ => (t.pending_bindingActs i).trans h

@[simp] theorem pending_reportCode (c : Code) : (s.reportCode c).2.pending = s.pending := (Moves.reportCode s c).pending

@[simp] theorem pending_postTrigger (r : Byte) (c : Code) : (s.postTrigger r c).pending = s.pending := pending_post ..

@[simp] theorem pending_routeCode (c : Code) : (s.routeCode c).pending = s.pending := by
  have reported : (s.reported c).pending = s.pending := by
    unfold reported
    split <;> simp
  have counted (u : State) : (u.countUnbound c).pending = u.pending := by
    unfold countUnbound
    split <;> simp
  rcases woke : (s.reported c).reportCode c with ⟨n, t⟩
  rcases acted : t.fireBindings c with ⟨m, u⟩
  have woken := (s.reported c).pending_reportCode c
  have fired := t.pending_fireBindings c
  rw [woke] at woken
  rw [acted] at fired
  have kept : u.pending = s.pending := fired.trans (woken.trans reported)
  rw [routeCode_eq woke acted]
  split
  · exact (counted u).trans kept
  · exact kept

@[simp] theorem pending_trigFrame (held : List Byte) : (s.trigFrame held).pending = s.pending := by
  unfold trigFrame
  dsimp only
  split
  · rfl
  · split
    · exact pending_routeCode ..
    · rfl

@[simp] theorem pending_noteTrg (r : Reception) : (s.noteTrg r).pending = s.pending := by
  unfold noteTrg
  split <;> rfl

@[simp] theorem pending_trigTake (b : Byte) (good : Bool) : (s.trigTake b good).pending = s.pending := by
  unfold trigTake
  split
  · rfl
  · split <;> rfl
  · split
    · dsimp only
      split
      · rfl
      · exact pending_trigFrame ..
    · rfl

@[simp] theorem pending_trigByte (b : Byte) (good : Bool) : (s.trigByte b good).pending = s.pending := by
  unfold trigByte
  split <;> simp

@[simp] theorem pending_trigLine (good : Bool) (e : LineEvent) : (s.trigLine good e).pending = s.pending := by
  cases e with
  | startBit => exact pending_noteTrg ..
  | byte b => exact pending_trigByte ..

@[simp] theorem pending_trigGapFrame : s.trigGapFrame.pending = s.pending := by
  unfold trigGapFrame
  split
  · split <;> rfl
  · rfl

/-! ### Store steps (R128, R132, R185) -/

@[simp] theorem pending_endStep (r : OpRecord) (result : StoreResult) : (s.endStep r result).pending = s.pending := by
  unfold endStep postStoreDone
  dsimp only
  split
  · rfl
  · split
    · rfl
    · exact pending_post ..

@[simp] theorem pending_stepDone : s.stepDone.pending = s.pending := by
  unfold stepDone
  split
  · rfl
  · exact pending_endStep ..

@[simp] theorem pending_stepTimesOut : s.stepTimesOut.pending = s.pending := by
  unfold stepTimesOut
  split
  · rfl
  · exact pending_endStep ..

@[simp] theorem pending_tickStore : s.tickStore.pending = s.pending := by
  unfold tickStore
  split
  · rfl
  · split
    · exact pending_stepTimesOut s
    · rfl

/-! ### Time (R137, R138, log 3) -/

@[simp] theorem pending_voicesThrough (last : Nat) : (s.voicesThrough last).pending = s.pending := by
  rw [voicesThrough_eq]
  exact (Moves.foldl _ .voiceFrame ..).pending

@[simp] theorem pending_mixFrame : s.mixFrame.pending = s.pending := by
  rw [mixFrame_eq]
  split <;> rfl

@[simp] theorem pending_countShare : s.countShare.pending = s.pending := by
  unfold countShare
  split <;> rfl

theorem moves_settleTicked : Moves s s.settleTicked := by
  unfold settleTicked
  split
  · exact .refl s
  · exact .settle ..

@[simp] theorem pending_lanesThrough (last : Nat) : (s.lanesThrough last).pending = s.pending := by
  unfold lanesThrough
  split
  · rfl
  · exact (s.moves_settleTicked.trans (.tickInTurn ..)).pending

@[simp] theorem pending_tickHoldoffs : s.tickHoldoffs.pending = s.pending := rfl

@[simp] theorem pending_holdoffShare : s.holdoffShare.pending = s.pending := pending_share s.pending_tickHoldoffs _

@[simp] theorem pending_storeShare : s.storeShare.pending = s.pending := pending_share s.pending_tickStore _

@[simp] theorem pending_hostGapShare : s.hostGapShare.pending = s.pending := pending_share s.pending_hostGapFrame _

@[simp] theorem pending_trigGapShare : s.trigGapShare.pending = s.pending := pending_share s.pending_trigGapFrame _

/-- The tick at every block (R138): the count, the lanes, the holdoffs and the store in turn. -/
@[simp] theorem pending_tickRest : s.tickRest.pending = s.pending := by simp [tickRest]

@[simp] theorem pending_endFrame : s.endFrame.pending = s.pending := pending_ite s.pending_tickRest _

/-- An output frame (R137): the voices, the mix, the gap counts and the tick in turn. -/
@[simp] theorem pending_frame : s.frame.pending = s.pending := by simp [frame]

@[simp] theorem pending_laneAhead (l : Fin 4) : (s.laneAhead l).pending = s.pending := by simp [laneAhead]

@[simp] theorem pending_muteAhead : s.muteAhead.pending = s.pending := by
  unfold muteAhead
  split <;> rfl

/-! ### Signals, autostart entries, resets and loading (R84, R95, R136, R170, R171, R182) -/

@[simp] theorem pending_nextSignal : s.nextSignal.pending = s.pending := by
  unfold nextSignal
  split
  · rfl
  · exact (Moves.takeSignal ..).pending

@[simp] theorem pending_nextAutostart : s.nextAutostart.pending = s.pending := by
  unfold nextAutostart
  split
  · rfl
  · dsimp only
    split
    · exact (Moves.startLane ..).pending
    · rfl

@[simp] theorem pending_assertNrst : s.assertNrst.pending = s.pending := by
  unfold assertNrst
  split
  · rfl
  · split <;> rfl

@[simp] theorem pending_powerOn : s.powerOn.pending = s.pending := by
  unfold powerOn
  split <;> rfl

@[simp] theorem pending_powerOff : s.powerOff.pending = s.pending := by
  unfold powerOff
  split <;> rfl

@[simp] theorem pending_load : s.load.pending = s.pending := by
  unfold load
  split
  · exact pending_post ..
  · rfl

end State

/-! ### Every command -/

/-- Settles O2: a host request comes to its owner, which takes no command; the other commands by their row, where the resets and the
supply hand the queue on. -/
theorem everyCommandCompletes : Obligations.EveryCommandCompletes := by
  unfold Obligations.EveryCommandCompletes
  intro c s
  cases hc : requestHead c with
  | some p =>
    obtain ⟨f, owner, he⟩ := exec_of_host (tag := p.1) (type := p.2) hc
    exact ⟨_, he s, s.pending_request owner ..⟩
  | none =>
    cases c with
    | hostFrameComplete => exact ⟨_, rfl, s.pending_hostByte ..⟩
    | hostByteReceived => exact ⟨_, rfl, s.pending_hostLine ..⟩
    | hostGapTimeout => exact ⟨_, rfl, State.pending_ahead s.pending_hostGapFrame _ _⟩
    | replySent => exact ⟨_, rfl, State.pending_ite s.pending_replyEnds _⟩
    | triggerFrameComplete => exact ⟨_, rfl, s.pending_trigByte ..⟩
    | triggerByteReceived => exact ⟨_, rfl, s.pending_trigLine ..⟩
    | trigGapTimeout => exact ⟨_, rfl, State.pending_ahead s.pending_trigGapFrame _ _⟩
    | frame => exact ⟨_, rfl, State.pending_ite s.pending_frame _⟩
    | cutComplete v => exact ⟨_, rfl, State.pending_ahead (s.pending_voicesThrough v.val) _ _⟩
    | rampMoveInstant v => exact ⟨_, rfl, State.pending_ahead (s.pending_voicesThrough v.val) _ _⟩
    | muteRampEnd => exact ⟨_, rfl, s.pending_muteAhead⟩
    | msTick => exact ⟨_, rfl, State.pending_ahead s.pending_tickRest _ _⟩
    | waitTimeExpiry l => exact ⟨_, rfl, State.pending_ite (s.pending_laneAhead l) _⟩
    | heldNoticeExpiry l => exact ⟨_, rfl, State.pending_ite (s.pending_laneAhead l) _⟩
    | holdoffExpiry => exact ⟨_, rfl, State.pending_ahead (s.countShare.pending_tickHoldoffs.trans s.pending_countShare) _ _⟩
    | stepTimeout => exact ⟨_, rfl, State.pending_ahead (s.countShare.pending_tickStore.trans s.pending_countShare) _ _⟩
    | storeStepDone => exact ⟨_, rfl, s.pending_stepDone⟩
    | handleNotLive => exact ⟨_, rfl, s.pending_nextSignal⟩
    | retryRound => exact ⟨_, rfl, (Moves.retryRound s).pending⟩
    | autostartEntry => exact ⟨_, rfl, s.pending_nextAutostart⟩
    | nrstAssert => exact ⟨_, rfl, s.pending_assertNrst⟩
    | nrstRelease => exact ⟨_, rfl, rfl⟩
    | powerUp => exact ⟨_, rfl, s.pending_powerOn⟩
    | powerLoss => exact ⟨_, rfl, s.pending_powerOff⟩
    | setupLoad => exact ⟨_, rfl, s.pending_load⟩
    | _ => cases hc

end Sys2Proof.Machine
end
